-- ==== Sys2Proof/Word.lean ====
section
/-! DEFINITION. The two value types of the engine (00_scope.md R6): a word is 32 bits, a byte is 8 bits,
both unsigned. Bit 0 is the least significant bit. -/

namespace Sys2Proof

/-- A 32-bit unsigned word (R4, R6). `+` on it is addition modulo 2^32 (R65). -/
abbrev Word := BitVec 32

/-- An 8-bit unsigned byte (R6). -/
abbrev Byte := BitVec 8

end Sys2Proof
end

