-- ==== Sys2Proof/Syntax.lean ====
section
/-! DEFINITION. The instructions: one constructor per row of spec/opcode_table.json. Five host commands
(format CMD16, 30_encoding.md R47), four rest codes and eight engine micro-operations (format SEQ8, R52). -/

namespace Sys2Proof

/-- An instruction of the engine. EXPAND has two rows in the table (R52, 90_conflicts.md C12) and so two
constructors, each carrying the schedule index `t` itself. -/
inductive Instr where
  /-- Host command INIT (45_driver_commands.md R112). -/
  | init
  /-- Host command ABSORB with its message byte (R113). -/
  | absorb (bb : Byte)
  /-- Host command FINAL (R114). -/
  | final
  /-- Host command RDH with its digest word index, `w[10:8]` (R115, R48). -/
  | rdh (i : BitVec 3)
  /-- Host command RDSTAT (R116). -/
  | rdstat
  /-- Rest code IDLE (R117): no session since reset. -/
  | idle
  /-- Rest code ACCEPT (R117): a session is open and takes message bytes. -/
  | accept
  /-- Rest code DONE (R117): the digest is in H. -/
  | done
  /-- Rest code ERR (R117): the session was ended by TOO_LARGE. -/
  | err
  /-- Micro-operation PARSE (42_padding_and_parse.md R84). -/
  | parse
  /-- Micro-operation LOADV (44_compression.md R100). -/
  | loadv
  /-- Micro-operation FEEDFWD (R102). -/
  | feedfwd
  /-- Micro-operation PAD_ONE (42_padding_and_parse.md R81). -/
  | padOne
  /-- Micro-operation PAD_ZERO (R82). -/
  | padZero
  /-- Micro-operation PAD_LEN(i), `i = SEQ[2:0]` (R83). -/
  | padLen (i : BitVec 3)
  /-- Micro-operation EXPAND(t), first row: `t = SEQ[5:0]` in 16..31 (43_message_schedule.md R95). -/
  | expandLow (t : BitVec 6)
  /-- Micro-operation EXPAND(t), second row: `t = SEQ[5:0]` in 32..63 (R95). -/
  | expandHigh (t : BitVec 6)
  /-- Micro-operation ROUND(t), `t = SEQ[5:0]` (44_compression.md R101). -/
  | round (t : BitVec 6)
  deriving DecidableEq, Repr

end Sys2Proof
end

