-- ==== Sys2Proof/WellFormed.lean ====
section
/-! DEFINITION. Which instruction terms stand for a word of the encoding tables (30_encoding.md R47, R52). Only the
EXPAND rows constrain their operand beyond its width: 16..31 in the first row and 32..63 in the second. -/

namespace Sys2Proof

/-- The operand is one the instruction's row of the opcode table admits. -/
def Instr.wellFormed : Instr → Bool
  | .init => true
  | .absorb _ => true
  | .final => true
  | .rdh _ => true
  | .rdstat => true
  | .idle => true
  | .accept => true
  | .done => true
  | .err => true
  | .parse => true
  | .loadv => true
  | .feedfwd => true
  | .padOne => true
  | .padZero => true
  | .padLen _ => true
  | .expandLow t => decide (16 ≤ t.toNat ∧ t.toNat ≤ 31)
  | .expandHigh t => decide (32 ≤ t.toNat)
  | .round _ => true

end Sys2Proof
end

