-- ==== Sys2Proof/Decode.lean ====
section
/-! DEFINITION. Decoding and encoding. There are two encoded things (30_encoding.md, opening): the command word the
host presents (CMD16, R45 to R49) and the sequencer code in SEQ (SEQ8, R50 to R53). Decoding is total and rejects by
name; it does not depend on the state (R54). -/

namespace Sys2Proof

/-- Why a word or a code stands for no instruction. -/
inductive DecodeError where
  /-- A command word with a bit above bit 15 set (R45, R49). -/
  | bitAbove15
  /-- OP = 0x0 or 0x6 to 0xF (R49). -/
  | reservedOp
  /-- A field the command does not use is not zero (R45, R49). -/
  | unusedFieldNotZero
  /-- RDH with IDX = 8 to 15 (R49). -/
  | indexOutOfRange
  /-- A reserved sequencer code (R53). -/
  | reservedSeqCode
  /-- A row width that is neither 16 (CMD16) nor 8 (SEQ8), or a sequencer code of more than 8 bits. -/
  | noSuchFormat
  deriving DecidableEq, Repr

/-! ### Command words -/

/-- OP, bits 15:12 of a command word (R45). -/
def cmdOp (w : BitVec 16) : BitVec 4 := w.extractLsb' 12 4

/-- IDX, bits 11:8 of a command word (R45). -/
def cmdIdx (w : BitVec 16) : BitVec 4 := w.extractLsb' 8 4

/-- DATA, bits 7:0 of a command word (R45). -/
def cmdData (w : BitVec 16) : Byte := w.extractLsb' 0 8

/-- A command without operands: its IDX and DATA fields must be zero (R45). -/
def decodePlain (i : Instr) (idx : BitVec 4) (data : Byte) : Except DecodeError Instr :=
  if idx = 0#4 ∧ data = 0#8 then .ok i else .error .unusedFieldNotZero

/-- The command a 16-bit word stands for (R47, R48), or why it is illegal (R49). -/
def decodeCmd16 (w : BitVec 16) : Except DecodeError Instr :=
  let idx := cmdIdx w
  let data := cmdData w
  if cmdOp w = 0x1#4 then decodePlain .init idx data
  else if cmdOp w = 0x2#4 then
    if idx = 0#4 then .ok (.absorb data) else .error .unusedFieldNotZero
  else if cmdOp w = 0x3#4 then decodePlain .final idx data
  else if cmdOp w = 0x4#4 then
    if idx.extractLsb' 3 1 = 1#1 then .error .indexOutOfRange
    else if data = 0#8 then .ok (.rdh (idx.extractLsb' 0 3)) else .error .unusedFieldNotZero
  else if cmdOp w = 0x5#4 then decodePlain .rdstat idx data
  else .error .reservedOp

/-- The command a word of a port of any width stands for: a set bit above bit 15 makes it illegal (R45, R49). -/
def decodeCommand (w : Nat) : Except DecodeError Instr :=
  if w < 65536 then decodeCmd16 (BitVec.ofNat 16 w) else .error .bitAbove15

/-! ### Sequencer codes -/

/-- The class of a sequencer code, `SEQ[7:6]` (R50). -/
def seqClass (c : BitVec 8) : BitVec 2 := c.extractLsb' 6 2

/-- The operand of EXPAND and ROUND, `SEQ[5:0]` (R50, R52). -/
def seqIndex (c : BitVec 8) : BitVec 6 := c.extractLsb' 0 6

/-- A code of the control class, `SEQ[7:6] = 0b00` (R52). -/
def decodeControl (c : BitVec 8) : Except DecodeError Instr :=
  if c = 0x00#8 then .ok .idle
  else if c = 0x01#8 then .ok .accept
  else if c = 0x02#8 then .ok .done
  else if c = 0x03#8 then .ok .err
  else if c = 0x04#8 then .ok .parse
  else if c = 0x05#8 then .ok .loadv
  else if c = 0x06#8 then .ok .feedfwd
  else if c = 0x08#8 then .ok .padOne
  else if c = 0x09#8 then .ok .padZero
  else if c.extractLsb' 3 5 = 0b00010#5 then .ok (.padLen (c.extractLsb' 0 3))
  else .error .reservedSeqCode

/-- The micro-operation or rest code a sequencer code stands for (R50, R52), or that it is reserved (R53). -/
def decodeSeq (c : BitVec 8) : Except DecodeError Instr :=
  if seqClass c = 0b10#2 then .ok (.round (seqIndex c))
  else if seqClass c = 0b01#2 then
    if (seqIndex c).toNat < 16 then .error .reservedSeqCode
    else if (seqIndex c).toNat < 32 then .ok (.expandLow (seqIndex c))
    else .ok (.expandHigh (seqIndex c))
  else if seqClass c = 0b00#2 then decodeControl c
  else .error .reservedSeqCode

/-! ### The encoder -/

/-- An encoded instruction in its own format. -/
inductive CodeWord where
  /-- A command word (R45). -/
  | cmd16 (w : BitVec 16)
  /-- A sequencer code (R50). -/
  | seq8 (c : BitVec 8)
  deriving DecidableEq, Repr

/-- The number a code word is, bit 0 the least significant. -/
def CodeWord.toNat : CodeWord → Nat
  | .cmd16 w => BitVec.toNat w
  | .seq8 c => BitVec.toNat c

/-- How many bits a code word has. -/
def CodeWord.nbits : CodeWord → Nat
  | .cmd16 _ => 16
  | .seq8 _ => 8

/-- What a code word stands for, in its own format. -/
def decodeCodeWord : CodeWord → Except DecodeError Instr
  | .cmd16 w => decodeCmd16 w
  | .seq8 c => decodeSeq c

/-- A command word from its three fields (R45). -/
def cmdWord (op idx : BitVec 4) (data : Byte) : BitVec 16 := op ++ idx ++ data

/-- The code IDLE (R52). -/
def seqIdle : BitVec 8 := 0x00#8
/-- The code ACCEPT (R52). -/
def seqAccept : BitVec 8 := 0x01#8
/-- The code DONE (R52). -/
def seqDone : BitVec 8 := 0x02#8
/-- The code ERR (R52). -/
def seqErr : BitVec 8 := 0x03#8
/-- The code PARSE (R52). -/
def seqParse : BitVec 8 := 0x04#8
/-- The code LOADV (R52). -/
def seqLoadv : BitVec 8 := 0x05#8
/-- The code FEEDFWD (R52). -/
def seqFeedfwd : BitVec 8 := 0x06#8
/-- The code PAD_ONE (R52). -/
def seqPadOne : BitVec 8 := 0x08#8
/-- The code PAD_ZERO (R52). -/
def seqPadZero : BitVec 8 := 0x09#8
/-- The code PAD_LEN(i), 0x10 + i (R52). -/
def seqPadLen (i : BitVec 3) : BitVec 8 := 0x10#8 + i.setWidth 8
/-- The code EXPAND(t), 0x40 + t (R52). -/
def seqExpand (t : BitVec 6) : BitVec 8 := 0x40#8 + t.setWidth 8
/-- The code ROUND(t), 0x80 + t (R52). -/
def seqRound (t : BitVec 6) : BitVec 8 := 0x80#8 + t.setWidth 8

/-- The word or code of a well-formed instruction (R47, R52). -/
def encode : Instr → CodeWord
  | .init => .cmd16 (cmdWord 0x1#4 0#4 0#8)
  | .absorb bb => .cmd16 (cmdWord 0x2#4 0#4 bb)
  | .final => .cmd16 (cmdWord 0x3#4 0#4 0#8)
  | .rdh i => .cmd16 (cmdWord 0x4#4 (i.setWidth 4) 0#8)
  | .rdstat => .cmd16 (cmdWord 0x5#4 0#4 0#8)
  | .idle => .seq8 seqIdle
  | .accept => .seq8 seqAccept
  | .done => .seq8 seqDone
  | .err => .seq8 seqErr
  | .parse => .seq8 seqParse
  | .loadv => .seq8 seqLoadv
  | .feedfwd => .seq8 seqFeedfwd
  | .padOne => .seq8 seqPadOne
  | .padZero => .seq8 seqPadZero
  | .padLen i => .seq8 (seqPadLen i)
  | .expandLow t => .seq8 (seqExpand t)
  | .expandHigh t => .seq8 (seqExpand t)
  | .round t => .seq8 (seqRound t)

/-! ### The opcode table's rows -/

/-- A row of spec/opcode_table.json: the width of its format and its match and mask. -/
structure TableRow where
  nbits : Nat
  pat : Nat
  mask : Nat
  deriving DecidableEq, Repr

/-- The row an instruction stands for. -/
def Instr.row : Instr → TableRow
  | .init => ⟨16, 0x1000, 0xFFFF⟩
  | .absorb _ => ⟨16, 0x2000, 0xFF00⟩
  | .final => ⟨16, 0x3000, 0xFFFF⟩
  | .rdh _ => ⟨16, 0x4000, 0xF8FF⟩
  | .rdstat => ⟨16, 0x5000, 0xFFFF⟩
  | .idle => ⟨8, 0x00, 0xFF⟩
  | .accept => ⟨8, 0x01, 0xFF⟩
  | .done => ⟨8, 0x02, 0xFF⟩
  | .err => ⟨8, 0x03, 0xFF⟩
  | .parse => ⟨8, 0x04, 0xFF⟩
  | .loadv => ⟨8, 0x05, 0xFF⟩
  | .feedfwd => ⟨8, 0x06, 0xFF⟩
  | .padOne => ⟨8, 0x08, 0xFF⟩
  | .padZero => ⟨8, 0x09, 0xFF⟩
  | .padLen _ => ⟨8, 0x10, 0xF8⟩
  | .expandLow _ => ⟨8, 0x50, 0xF0⟩
  | .expandHigh _ => ⟨8, 0x60, 0xE0⟩
  | .round _ => ⟨8, 0x80, 0xC0⟩

/-- The instruction read from a table word: 16 bits is a command word, 8 bits a sequencer code. A command has one
word and a sequencer code is one register (R54, R50), so nothing lies above `nbits`. -/
def decodeTableWord (nbits w : Nat) : Option Instr :=
  if nbits = 16 then (decodeCommand w).toOption
  else if nbits = 8 ∧ w < 256 then (decodeSeq (BitVec.ofNat 8 w)).toOption
  else none

end Sys2Proof
end

