-- ==== Sys2Proof/Config.lean ====
section
/-! DEFINITION. The one parameter the spec leaves open, `RESET_GARBAGE` (00_scope.md R5, 10_state.md R23 and
R24, 92_eei_decisions.md D20): the contents of H, V, W and B after a reset. DESIGN CHOICE (log entry 1): opaque
constants of the number of resets so far. Nothing in Lean can evaluate one or prove a value of one, so a
statement about a state after reset holds whatever the registers held. Every other size is fixed (R4, R5). -/

namespace Sys2Proof

/-- What H holds after the reset with this number. -/
opaque Config.resetH : Nat → Vector Word 8

/-- What V holds after the reset with this number. -/
opaque Config.resetV : Nat → Vector Word 8

/-- What W holds after the reset with this number. -/
opaque Config.resetW : Nat → Vector Word 64

/-- What B holds after the reset with this number. -/
opaque Config.resetB : Nat → Vector Byte 64

end Sys2Proof
end

