-- ==== Sys2Proof/Machine/State.lean ====
section
/-! DEFINITION. The state of the machine as plain data (10_state.md R21: H, V, W, B, N, LEN, SEQ, RET), the model's
own fields for the host's side of the command port, the reasons a step can stop, and the state after reset. -/

namespace Sys2Proof.Machine

/-- The values of the return register RET; it has no numeric encoding (R17). -/
inductive Ret where
  | accept
  | padZero
  | done
  deriving DecidableEq, Repr

/-- The CODE field of a response (30_encoding.md R46). -/
inductive Code where
  /-- The command was accepted and performed. -/
  | ok
  /-- The word is not a defined command (60_exceptions.md R131). -/
  | illegalCmd
  /-- A defined command in a phase that does not take it (R132). -/
  | badPhase
  /-- The message is as long as the length field allows, or the session was ended for that reason (R133). -/
  | tooLarge
  deriving DecidableEq, Repr

/-- A response to a decided command (R46). -/
structure Response where
  code : Code
  data : Word
  deriving DecidableEq, Repr

/-- What the world outside the engine does next (45_driver_commands.md R110, 70_reset_and_hazards.md R150, R160). -/
inductive HostEvent where
  /-- The host presents this word, as soon as no command of its own is outstanding. -/
  | command (w : Nat)
  /-- The host has an RDSTAT answered at once, also while a command of its own is held (R110). -/
  | poll
  /-- The host presents nothing new during one step. -/
  | pass
  /-- The reset event (R150). -/
  | reset
  deriving DecidableEq, Repr

/-- The machine's state. -/
structure State where
  /-- `H[0..7]`, the hash state (R11). -/
  h : Vector Word 8
  /-- `V[0..7]`, the working variables `a..h` (R12). -/
  v : Vector Word 8
  /-- `W[0..63]`, the message schedule (R13). -/
  w : Vector Word 64
  /-- `B[0..63]`, the block buffer (R14). -/
  b : Vector Byte 64
  /-- `N`, how many bytes of B are filled, 0 to 64 (R14). -/
  n : BitVec 7
  /-- `LEN`, the message bit count (R15). -/
  len : BitVec 64
  /-- `SEQ`, the sequencer register (R16). -/
  seq : BitVec 8
  /-- `RET`, the return register (R17). -/
  ret : Ret
  /-- The model's own: the command presented and not yet decided (R110, R153; log entry 2). -/
  port : Option Nat
  /-- The model's own: what the host and the reset line do next, in order (log entry 2). -/
  inputs : List HostEvent
  /-- The model's own: the responses returned so far, oldest first (R46, R159; log entry 3). -/
  responses : List Response
  /-- The model's own: how many reset events have happened, which selects the garbage of the next (log entry 1). -/
  resets : Nat
  deriving DecidableEq, Repr

/-- Why the machine can stop with no next state. No state that a run from reset reaches meets one (R25, R26). -/
inductive Fault where
  /-- SEQ holds a reserved code: the machine is stuck (30_encoding.md R53). Raised by every step but a reset, and by the
  commands that look at SEQ. Safe: the spec gives such a state no step. -/
  | reservedSeq
  /-- A byte is pushed while N is 64 or more: B has no such index (20_memory.md R30, 42_padding_and_parse.md R80). Raised by
  ABSORB, PAD_ONE, PAD_ZERO and PAD_LEN. Safe: no rule produces such an index. -/
  | bufferIndex
  /-- EXPAND(t) with t below 16: `W[t - 16]` does not exist (R30, R50). Raised by EXPAND. Safe: no code decodes to it. -/
  | scheduleIndex
  deriving DecidableEq, Repr

/-- Why a step can be refused. -/
inductive Refusal where
  /-- The instruction has no meaning yet. Raised by no arm of this model. Safe. -/
  | notModelled (mnemonic : String)
  deriving DecidableEq, Repr

/-- The state after the reset with number `k` (10_state.md R23): SEQ = IDLE, RET = ACCEPT, N = 0, LEN = 0, the four
register files at the open parameter RESET_GARBAGE, nothing presented. -/
def State.afterReset (k : Nat) : State where
  h := Sys2Proof.Config.resetH k
  v := Sys2Proof.Config.resetV k
  w := Sys2Proof.Config.resetW k
  b := Sys2Proof.Config.resetB k
  n := 0#7
  len := 0#64
  seq := 0x00#8
  ret := .accept
  port := none
  inputs := []
  responses := []
  resets := k

/-- The machine right after its first reset (R23). -/
def State.reset : State := State.afterReset 0

end Sys2Proof.Machine
end

