-- ==== Sys2Proof/Machine/Operands.lean ====
section
/-! DEFINITION. Every operand form: a register of each file by its index (20_memory.md R30), a big-endian word of the
block buffer (R31, R32), a byte of the length (42_padding_and_parse.md R83), the return code (10_state.md R17). -/

namespace Sys2Proof.Machine

/-- `H[i]` (R11). -/
def State.hAt (s : State) (i : BitVec 3) : Word := s.h[i.toNat]'i.isLt

/-- `V[i]` (R12). -/
def State.vAt (s : State) (i : BitVec 3) : Word := s.v[i.toNat]'i.isLt

/-- `W[t]` (R13). -/
def State.wAt (s : State) (t : BitVec 6) : Word := s.w[t.toNat]'t.isLt

/-- `B[j]` (R14). -/
def State.bAt (s : State) (j : BitVec 6) : Byte := s.b[j.toNat]'j.isLt

/-- `MemRead(4t, 4)`: the four bytes of word `t` of a block, the first the most significant (R7, R31). -/
def memRead (b : Vector Byte 64) (t : BitVec 4) : Word :=
  b[4 * t.toNat]'(by have := t.isLt; omega) ++ b[4 * t.toNat + 1]'(by have := t.isLt; omega) ++
    b[4 * t.toNat + 2]'(by have := t.isLt; omega) ++ b[4 * t.toNat + 3]'(by have := t.isLt; omega)

/-- The schedule file after PARSE: words 0..15 from the block, the rest as they were (R84). -/
def parseWords (b : Vector Byte 64) (w : Vector Word 64) : Vector Word 64 :=
  Vector.ofFn fun t => if t.val < 16 then memRead b (BitVec.ofNat 4 t.val) else w[t]

/-- `LEN[63 - 8i : 56 - 8i]`, byte `i` of the length, the most significant first (R83, R31). -/
def lenByte (len : BitVec 64) (i : BitVec 3) : Byte := len.extractLsb' (56 - 8 * i.toNat) 8

/-- The code SEQ takes from a return value (R17, R102). -/
def Ret.code : Ret → BitVec 8
  | .accept => seqAccept
  | .padZero => seqPadZero
  | .done => seqDone

end Sys2Proof.Machine
end

