-- ==== Sys2Proof/Machine/Flags.lean ====
section
/-! DEFINITION. There are no stored flags (10_state.md R18): the four status bits are functions of SEQ, and STATUS is a
function of SEQ and N (R19). The three kinds of sequencer code are here too (30_encoding.md R51 to R53). -/

namespace Sys2Proof.Machine

/-- SEQ holds one of the four rest codes: STATUS.READY (R19, R51). -/
def State.isRest (s : State) : Bool := decide (s.seq.toNat ≤ 3)

/-- SEQ holds a reserved code (R53). -/
def State.isReserved (s : State) : Bool := !(decodeSeq s.seq).isOk

/-- SEQ holds a busy code: a defined code that is no rest code (R51). -/
def State.isBusy (s : State) : Bool := !s.isRest && !s.isReserved

/-- STATUS.ACCEPTING (R19). -/
def State.accepting (s : State) : Bool := decide (s.seq = seqAccept)

/-- STATUS.VALID (R19). -/
def State.valid (s : State) : Bool := decide (s.seq = seqDone)

/-- STATUS.ERR (R19). -/
def State.errFlag (s : State) : Bool := decide (s.seq = seqErr)

/-- A status bit as a word. -/
def bitWord (x : Bool) : Word := (BitVec.ofBool x).setWidth 32

/-- STATUS: N in 22:16, SEQ in 15:8, ERR, VALID, ACCEPTING, READY in 3:0, the other bits 0 (R19). -/
def State.statusWord (s : State) : Word :=
  s.n.setWidth 32 <<< 16 ||| s.seq.setWidth 32 <<< 8 ||| bitWord s.errFlag <<< 3 |||
    bitWord s.valid <<< 2 ||| bitWord s.accepting <<< 1 ||| bitWord s.isRest

end Sys2Proof.Machine
end

