-- ==== Sys2Proof/Machine/Mixing.lean ====
section
/-! DEFINITION. The bitwise mixing logic (41_bitwise_primitives.md R65 to R75): total combinational functions of words.
Addition is `+` on words, modulo 2^32 (R65). -/

namespace Sys2Proof.Machine

/-- `x + y` modulo 2^32 with no carry recorded (R65). -/
def add32 (x y : Word) : Word := x + y

/-- Right rotation within 32 bits, the amount modulo 32 (R66). -/
def rotr (x : Word) (n : Nat) : Word := x.rotateRight n

/-- Logical right shift (R67). -/
def shr (x : Word) (n : Nat) : Word := x >>> n

/-- Σ0 (R69). -/
def bsig0 (x : Word) : Word := rotr x 2 ^^^ rotr x 13 ^^^ rotr x 22

/-- Σ1 (R70). -/
def bsig1 (x : Word) : Word := rotr x 6 ^^^ rotr x 11 ^^^ rotr x 25

/-- σ0 (R71). -/
def ssig0 (x : Word) : Word := rotr x 7 ^^^ rotr x 18 ^^^ shr x 3

/-- σ1 (R72). -/
def ssig1 (x : Word) : Word := rotr x 17 ^^^ rotr x 19 ^^^ shr x 10

/-- Ch (R73). -/
def ch (x y z : Word) : Word := (x &&& y) ^^^ (~~~x &&& z)

/-- Maj (R74). -/
def maj (x y z : Word) : Word := (x &&& y) ^^^ (x &&& z) ^^^ (y &&& z)

/-- The sum of EXPAND(t) from its four taps `W[t-2]`, `W[t-7]`, `W[t-15]`, `W[t-16]` (43_message_schedule.md R95). -/
def expandSum (w2 w7 w15 w16 : Word) : Word := add32 (add32 (add32 (ssig1 w2) w7) (ssig0 w15)) w16

/-- `T1` of a round on the working variables `v` with round constant `k` and schedule word `x` (44_compression.md R101). -/
def roundT1 (v : Vector Word 8) (k x : Word) : Word :=
  add32 (add32 (add32 (add32 v[7] (bsig1 v[4])) (ch v[4] v[5] v[6])) k) x

/-- `T2` of a round (R101). -/
def roundT2 (v : Vector Word 8) : Word := add32 (bsig0 v[0]) (maj v[0] v[1] v[2])

/-- The eight simultaneous writes of a round (R101, R103). -/
def roundStep (v : Vector Word 8) (k x : Word) : Vector Word 8 :=
  #v[add32 (roundT1 v k x) (roundT2 v), v[0], v[1], v[2], add32 v[3] (roundT1 v k x), v[4], v[5], v[6]]

/-- The element-wise feed-forward addition (R102). -/
def addWords (x y : Vector Word 8) : Vector Word 8 := Vector.ofFn fun i => add32 x[i] y[i]

end Sys2Proof.Machine
end

