-- ==== Sys2Proof/Machine/Ops.lean ====
section
/-! DEFINITION. The named operations: one update per field of State, the response to a command, TAKING A REJECTION (the
engine's exceptions, 60_exceptions.md R130 to R136), the hold (70_reset_and_hazards.md R153), the phase tests of a
command (45_driver_commands.md R110), the byte push (42_padding_and_parse.md R80) and the reset event (R150).
There is no return from an exception: a rejection transfers control nowhere (R135, R136). -/

namespace Sys2Proof.Machine

open Host (Outcome)

/-- What a step of this machine answers. -/
abbrev Result := Outcome State Fault Refusal

/-! ### One update per field -/

/-- Write H. -/
def State.setH (s : State) (x : Vector Word 8) : State := { s with h := x }
/-- Write V. -/
def State.setV (s : State) (x : Vector Word 8) : State := { s with v := x }
/-- Write W. -/
def State.setW (s : State) (x : Vector Word 64) : State := { s with w := x }
/-- Write B. -/
def State.setB (s : State) (x : Vector Byte 64) : State := { s with b := x }
/-- Write N. -/
def State.setN (s : State) (x : BitVec 7) : State := { s with n := x }
/-- Write LEN. -/
def State.setLen (s : State) (x : BitVec 64) : State := { s with len := x }
/-- Write SEQ. -/
def State.setSeq (s : State) (x : BitVec 8) : State := { s with seq := x }
/-- Write RET. -/
def State.setRet (s : State) (x : Ret) : State := { s with ret := x }
/-- Write the port. -/
def State.setPort (s : State) (x : Option Nat) : State := { s with port := x }
/-- Write the events still to come. -/
def State.setInputs (s : State) (x : List HostEvent) : State := { s with inputs := x }
/-- Return one more response. -/
def State.log (s : State) (r : Response) : State := { s with responses := s.responses ++ [r] }

/-- `W[t] <- x` (R95). -/
def State.writeW (s : State) (t : BitVec 6) (x : Word) : State := s.setW (s.w.set t.toNat x t.isLt)

/-- `MemWrite(j, 1, x)`: `B[j] <- x` (R7). -/
def State.writeB (s : State) (j : BitVec 6) (x : Byte) : State := s.setB (s.b.set j.toNat x j.isLt)

/-! ### Responses and rejections -/

/-- `respond(code, data)` for the command on the port, which is thereby decided and leaves the port (R7, R46). -/
def State.respond (s : State) (code : Code) (data : Word) : State := (s.log ⟨code, data⟩).setPort none

/-- The three rejections, the engine's only exceptions (R130). -/
inductive Rejection where
  | illegalCmd
  | badPhase
  | tooLarge
  deriving DecidableEq, Repr

/-- The response code of a rejection (R130). -/
def Rejection.code : Rejection → Code
  | .illegalCmd => .illegalCmd
  | .badPhase => .badPhase
  | .tooLarge => .tooLarge

/-- `raise X` (R7, R135): the response with DATA = 0, and SEQ <- ERR for TOO_LARGE (in ERR it is there already, R133).
Nothing is saved and control goes nowhere. -/
def State.raise (s : State) : Rejection → State
  | .illegalCmd => s.respond .illegalCmd 0#32
  | .badPhase => s.respond .badPhase 0#32
  | .tooLarge => (s.respond .tooLarge 0#32).setSeq seqErr

/-- The bits 33:32 of a response (R46). -/
def Code.bits : Code → BitVec 2
  | .ok => 0#2
  | .illegalCmd => 1#2
  | .badPhase => 2#2
  | .tooLarge => 3#2

/-- A response as its 34 bits (R46). -/
def Response.bits (r : Response) : BitVec 34 := r.code.bits ++ r.data

/-! ### Deciding a command -/

/-- `hold`: the command with this encoding waits on the port; nothing else changes (R110 test 3, R153). That exec of a
command at a busy code is this presentation of its own word is DEDUCED (log entry 8). -/
def State.hold (s : State) (c : CodeWord) : State := s.setPort (some c.toNat)

/-- Test 3 of R110 for the command encoded as `c`: held at a busy code, else `decided`. A reserved code gives no step (R53). -/
def whenAtRest (c : CodeWord) (decided : Result) (s : State) : Result :=
  if s.isReserved then .fault .reservedSeq
  else if s.isBusy then .next (s.hold c)
  else decided

/-- Tests 3, 5 and 6 of R110 for a command that needs the phase `phase`, then its own rule `perform`. -/
def whenInPhase (c : CodeWord) (phase : BitVec 8) (perform : Result) (s : State) : Result :=
  whenAtRest c
    (if s.seq = seqErr then .next (s.raise .tooLarge)
     else if s.seq = phase then perform
     else .next (s.raise .badPhase)) s

/-- The largest message's bit count, `2^64 - 8` (10_state.md R15). -/
def lenMax : BitVec 64 := 0xFFFFFFFFFFFFFFF8#64

/-! ### The byte push -/

/-- `push(x, r)` with the caller's own `SEQ <- next` (R80): the byte goes to `B[N]`; a full buffer is parsed before anything
else, the caller's continuation waiting in RET. An index B does not have is a fault. -/
def State.push (s : State) (x : Byte) (r : Ret) (next : BitVec 8) : Result :=
  if 64 ≤ s.n.toNat then .fault .bufferIndex
  else
    let t := (s.writeB (s.n.setWidth 6) x).setN (s.n + 1#7)
    if s.n = 63#7 then .next ((t.setRet r).setSeq seqParse)
    else .next (t.setSeq next)

/-! ### The schedule word -/

/-- The right-hand side of EXPAND(t) on a schedule file (R95), for `t` in 16..63. Below 16 the spec has none, and the
indices read wrap modulo 64 (DESIGN CHOICE, log entry 18). -/
def expandWord (w : Vector Word 64) (t : BitVec 6) : Word :=
  expandSum (w[(t - 2#6).toNat]'(t - 2#6).isLt) (w[(t - 7#6).toNat]'(t - 7#6).isLt)
    (w[(t - 15#6).toNat]'(t - 15#6).isLt) (w[(t - 16#6).toNat]'(t - 16#6).isLt)

/-- EXPAND(t) for `t` in 16..63: `W[t]`, then the next EXPAND, or LOADV after 63 (R95). -/
def State.expand (s : State) (t : BitVec 6) : Result :=
  if t.toNat < 16 then .fault .scheduleIndex
  else .next ((s.writeW t (expandWord s.w t)).setSeq (if t = 63#6 then seqLoadv else seqExpand (t + 1#6)))

/-! ### The reset event -/

/-- Reset (R150): every register at its reset value, the open ones at new garbage, a held command dropped without a
response. What the host did before and does next is not the engine's. -/
def State.resetEvent (s : State) : State :=
  { State.afterReset (s.resets + 1) with inputs := s.inputs, responses := s.responses }

end Sys2Proof.Machine
end

