-- ==== Sys2Proof/Machine/Command.lean ====
section
/-! DEFINITION. The five host commands (45_driver_commands.md R110 to R116), each with every outcome of R111. -/

namespace Sys2Proof.Machine

/-- INIT (R112): accepted at every rest code, held at a busy one. V, W and B are not changed. -/
def execInit (s : State) : Result :=
  whenAtRest (encode .init)
    (.next ((((((s.setH ivRom).setN 0#7).setLen 0#64).setRet .accept).setSeq seqAccept).respond .ok 0#32)) s

/-- ABSORB (R113): one message byte, or TOO_LARGE when `LEN = 2^64 - 8`. -/
def execAbsorb (bb : Byte) (s : State) : Result :=
  whenInPhase (encode (.absorb bb)) seqAccept
    (if s.len = lenMax then .next (s.raise .tooLarge)
     else ((s.setLen (s.len + 8#64)).respond .ok 0#32).push bb .accept seqAccept) s

/-- FINAL (R114): the message is complete, the padder starts. -/
def execFinal (s : State) : Result :=
  whenInPhase (encode .final) seqAccept (.next ((s.setSeq seqPadOne).respond .ok 0#32)) s

/-- RDH (R115): one word of the digest. -/
def execRdh (i : BitVec 3) (s : State) : Result :=
  whenInPhase (encode (.rdh i)) seqDone (.next (s.respond .ok (s.hAt i))) s

/-- RDSTAT (R116): never held, whatever SEQ is (R110 test 2). -/
def execRdstat (s : State) : Result := .next (s.respond .ok s.statusWord)

end Sys2Proof.Machine
end

