-- ==== Sys2Proof/Machine/Compression.lean ====
section
/-! DEFINITION. The compression function (44_compression.md R100 to R102). -/

namespace Sys2Proof.Machine

/-- LOADV (R100): V <- H. -/
def execLoadv (s : State) : Result := .next ((s.setV s.h).setSeq (seqRound 0#6))

/-- ROUND(t) (R101): one round with `K[t]` and `W[t]`, then the next round, or FEEDFWD after 63. -/
def execRound (t : BitVec 6) (s : State) : Result :=
  .next ((s.setV (roundStep s.v (kAt t) (s.wAt t))).setSeq (if t = 63#6 then seqFeedfwd else seqRound (t + 1#6)))

/-- FEEDFWD (R102): `H[i] <- H[i] + V[i]`, SEQ <- RET. -/
def execFeedfwd (s : State) : Result := .next ((s.setH (addWords s.h s.v)).setSeq s.ret.code)

end Sys2Proof.Machine
end

