-- ==== Sys2Proof/Machine/Padder.lean ====
section
/-! DEFINITION. The block padder and the parser (42_padding_and_parse.md R81 to R84). -/

namespace Sys2Proof.Machine

/-- PAD_ONE (R81): the byte 0x80. -/
def execPadOne (s : State) : Result := s.push 0x80#8 .padZero seqPadZero

/-- PAD_ZERO (R82): a zero byte, or on to the length when N = 56. -/
def execPadZero (s : State) : Result :=
  if s.n = 56#7 then .next (s.setSeq (seqPadLen 0#3)) else s.push 0x00#8 .padZero seqPadZero

/-- PAD_LEN(i) (R83): byte `i` of LEN; PAD_LEN(7) writes no SEQ of its own. -/
def execPadLen (i : BitVec 3) (s : State) : Result :=
  s.push (lenByte s.len i) .done (if i = 7#3 then s.seq else seqPadLen (i + 1#3))

/-- PARSE (R84): `W[0..15]` from the block, N <- 0. -/
def execParse (s : State) : Result :=
  .next (((s.setW (parseWords s.b s.w)).setN 0#7).setSeq (seqExpand 16#6))

end Sys2Proof.Machine
end

