-- ==== Sys2Proof/Machine/Rest.lean ====
section
/-! DEFINITION. The four rest codes (45_driver_commands.md R117): the engine has no step of its own and waits for the host.
Waiting changes nothing (60_exceptions.md R141: all state survives resting for any length of time). DEDUCED (log entry
4): a step in which the engine waits is a next state equal to the one before. -/

namespace Sys2Proof.Machine

/-- IDLE (R117). -/
def execIdle (s : State) : Result := .next s

/-- ACCEPT (R117). -/
def execAccept (s : State) : Result := .next s

/-- DONE (R117). -/
def execDone (s : State) : Result := .next s

/-- ERR (R117). -/
def execErr (s : State) : Result := .next s

end Sys2Proof.Machine
end

