-- ==== Sys2Proof/Machine/Schedule.lean ====
section
/-! DEFINITION. The message schedule expander (43_message_schedule.md R95): EXPAND(t) in its two rows of the opcode table. -/

namespace Sys2Proof.Machine

/-- EXPAND(t), `t` in 16..31 (R95). -/
def execExpandLow (t : BitVec 6) (s : State) : Result := s.expand t

/-- EXPAND(t), `t` in 32..63 (R95). -/
def execExpandHigh (t : BitVec 6) (s : State) : Result := s.expand t

end Sys2Proof.Machine
end

