-- ==== Sys2Proof/Machine/Dispatch.lean ====
section
/-! DEFINITION. The meaning of every instruction: one arm per constructor of Instr. -/

namespace Sys2Proof.Machine

def exec (i : Instr) (s : State) : Host.Outcome State Fault Refusal :=
  match i with
  | .init => Sys2Proof.Machine.execInit s
  | .absorb bb => Sys2Proof.Machine.execAbsorb bb s
  | .final => Sys2Proof.Machine.execFinal s
  | .rdh k => Sys2Proof.Machine.execRdh k s
  | .rdstat => Sys2Proof.Machine.execRdstat s
  | .idle => Sys2Proof.Machine.execIdle s
  | .accept => Sys2Proof.Machine.execAccept s
  | .done => Sys2Proof.Machine.execDone s
  | .err => Sys2Proof.Machine.execErr s
  | .parse => Sys2Proof.Machine.execParse s
  | .loadv => Sys2Proof.Machine.execLoadv s
  | .feedfwd => Sys2Proof.Machine.execFeedfwd s
  | .padOne => Sys2Proof.Machine.execPadOne s
  | .padZero => Sys2Proof.Machine.execPadZero s
  | .padLen k => Sys2Proof.Machine.execPadLen k s
  | .expandLow t => Sys2Proof.Machine.execExpandLow t s
  | .expandHigh t => Sys2Proof.Machine.execExpandHigh t s
  | .round t => Sys2Proof.Machine.execRound t s

end Sys2Proof.Machine
end

