-- ==== Sys2Proof/Machine/Sequencer.lean ====
section
/-! DEFINITION. Who moves next (10_state.md R10, 45_driver_commands.md R110 and R117): the host's next event, the word on
the command port, the engine's own step. -/

namespace Sys2Proof.Machine

/-- The host's next move before the step (R110): one `pass` is used up; a command goes on the port when nothing of the host's
is outstanding, and waits in the list while something is. -/
def State.takeInput (s : State) : State :=
  match s.inputs, s.port with
  | .pass :: rest, _ => s.setInputs rest
  | .command w :: rest, none => (s.setInputs rest).setPort (some w)
  | _, _ => s

/-- The engine's step: the micro-operation or rest code in SEQ; none at a reserved code (R53, R117). -/
def engineStep (s : State) : Result :=
  match decodeSeq s.seq with
  | .ok i => exec i s
  | .error _ => .fault .reservedSeq

/-- Whether a command presented in this state is decided now: an RDSTAT always, any other only at a rest code (R110). -/
def State.decidesNow (s : State) (i : Instr) : Bool := decide (i = .rdstat) || s.isRest

/-- One step once the host has moved: the word on the port is decided if it can be, else the engine takes its step (the
command, if there is one, being held, R153). -/
def advance (s : State) : Result :=
  if s.isReserved then .fault .reservedSeq
  else
    match s.port with
    | none => engineStep s
    | some w =>
      match decodeCommand w with
      | .error _ => .next (s.raise .illegalCmd)
      | .ok i => if s.decidesNow i then exec i s else engineStep s

/-- An RDSTAT answered at once, the command on the port staying there (R110). -/
def pollStep (s : State) : Result :=
  if s.isReserved then .fault .reservedSeq else .next (s.log ⟨.ok, s.statusWord⟩)

/-- One step of the machine: the reset event, a poll, or one step of host or engine (R10). -/
def machineStep (s : State) : Result :=
  match s.inputs with
  | .reset :: rest => .next ((s.setInputs rest).resetEvent)
  | .poll :: rest => pollStep (s.setInputs rest)
  | _ => advance s.takeInput

/-- The state in which the next step runs the instruction with these bits: a command word stands on the port of an engine at
rest, a sequencer code stands in SEQ with nothing on the port; no host event comes before it. -/
def placeWord (s : State) (nbits w : Nat) : State :=
  if nbits = 8 then ((s.setInputs []).setPort none).setSeq (BitVec.ofNat 8 w)
  else ((s.setInputs []).setPort (some w)).setSeq (if s.isRest then s.seq else seqIdle)

end Sys2Proof.Machine
end

