-- ==== Sys2Proof/Machine/Reference.lean ====
section
/-! DEFINITION. The closed forms the engine is held against: the padded message (42_padding_and_parse.md R85, R86), the
schedule of a block (43_message_schedule.md R96), the compression of a block (44_compression.md R103), the function
sha256 (45_driver_commands.md R121) and the canonical session (R120). No step of the machine calls one. -/

namespace Sys2Proof.Machine

/-- `z = (55 - L) mod 64`, taken non-negative (R85). -/
def zeroCount (l : Nat) : Nat := ((55 - (l : Int)) % 64).toNat

/-- The 8 bytes of a length, the most significant first (R85). -/
def be64 (n : BitVec 64) : List Byte :=
  [lenByte n 0#3, lenByte n 1#3, lenByte n 2#3, lenByte n 3#3, lenByte n 4#3, lenByte n 5#3, lenByte n 6#3, lenByte n 7#3]

/-- The padded message (R85), which R88 defines for at most `2^61 - 1` bytes. DESIGN CHOICE (log entry 18): the Lean function is
total, and on a longer list, outside R88's domain, its length field is the bit count modulo 2^64. -/
def padMessage (m : List Byte) : List Byte :=
  m ++ [0x80#8] ++ List.replicate (zeroCount m.length) 0x00#8 ++ be64 (BitVec.ofNat 64 (8 * m.length))

/-- How many blocks a message of `l` bytes has (R86). -/
def nblocks (l : Nat) : Nat := (l + 8) / 64 + 1

/-- Block `k` of a message: bytes `64k` to `64k + 63` of its padded form (R85), which R85 defines for `k` below `nblocks` only.
DESIGN CHOICE (log entry 18): the Lean function is total, and beyond the last block it gives 64 bytes of 0x00. -/
def blockOf (m : List Byte) (k : Nat) : Vector Byte 64 :=
  Vector.ofFn fun j => (padMessage m).getD (64 * k + j.val) 0x00#8

/-- The schedule of a block with the words 0 to `15 + k` in place (R96); the spec has `k` up to 48, and beyond it the index wraps
(DESIGN CHOICE, log entry 18). -/
def schedUpTo (b : Vector Byte 64) : Nat → Vector Word 64
  | 0 => parseWords b (Vector.replicate 64 0#32)
  | k + 1 =>
    let w := schedUpTo b k
    let t := BitVec.ofNat 6 (16 + k)
    w.set t.toNat (expandWord w t) t.isLt

/-- `sched(b)` (R96). -/
def sched (b : Vector Byte 64) : Vector Word 64 := schedUpTo b 48

/-- The working variables after `k` rounds, `v_k` of rule R103; the spec has `k` up to 64, and beyond it the round number wraps
(DESIGN CHOICE, log entry 18). -/
def roundsUpTo (h : Vector Word 8) (w : Vector Word 64) : Nat → Vector Word 8
  | 0 => h
  | k + 1 =>
    let t := BitVec.ofNat 6 k
    roundStep (roundsUpTo h w k) (kAt t) (w[t.toNat]'t.isLt)

/-- `compress(h, b)` (R103). -/
def compress (h : Vector Word 8) (b : Vector Byte 64) : Vector Word 8 := addWords h (roundsUpTo h (sched b) 64)

/-- `h_k` of rule R121: the hash state after `k` blocks; for `k` above `nblocks` it goes on over the zero blocks of blockOf
(DESIGN CHOICE, log entry 18). -/
def hashUpTo (m : List Byte) : Nat → Vector Word 8
  | 0 => ivRom
  | k + 1 => compress (hashUpTo m k) (blockOf m k)

/-- `sha256(M)` (R121); beyond `2^61 - 1` bytes it has the meaning log entry 18 gives the padded message. -/
def sha256 (m : List Byte) : Vector Word 8 := hashUpTo m (nblocks m.length)

/-- The command words RDH 0 to RDH 7, the pseudo-instruction RDDIGEST (30_encoding.md R56). -/
def rdDigestWords : List Nat :=
  [(encode (.rdh 0#3)).toNat, (encode (.rdh 1#3)).toNat, (encode (.rdh 2#3)).toNat, (encode (.rdh 3#3)).toNat,
   (encode (.rdh 4#3)).toNat, (encode (.rdh 5#3)).toNat, (encode (.rdh 6#3)).toNat, (encode (.rdh 7#3)).toNat]

/-- The command words of one ABSORB per byte, in order (R56). -/
def absorbWords (m : List Byte) : List Nat := m.map fun bb => (encode (.absorb bb)).toNat

/-- The canonical session of a message, the pseudo-instruction HASH (R120, R56). -/
def sessionWords (m : List Byte) : List Nat :=
  (encode .init).toNat :: (absorbWords m ++ ((encode .final).toNat :: rdDigestWords))

/-- How many engine steps the canonical session takes (R122). -/
def engineSteps (l : Nat) : Nat := 115 * nblocks l + zeroCount l + 10

end Sys2Proof.Machine
end

