-- ==== Sys2Proof/Machine/HostTools.lean ====
section
/-! DEFINITION. The host's tools: the assembler syntax and pseudo-instructions of 30_encoding.md (R55, R56) and the rendering
of a digest (45_driver_commands.md R123, 20_memory.md R31 (d)). The engine does none of this. -/

namespace Sys2Proof.Machine

/-! ### Lines -/

/-- One line of a command program (R55, R56). -/
inductive AsmLine where
  | init
  | absorb (operand : Nat)
  | final
  | rdh (operand : Nat)
  | rdstat
  | absorbs (chars : List Char)
  | absorbx (digits : List Char)
  | rddigest
  | hash (chars : List Char)
  deriving DecidableEq, Repr

/-- The value of a hexadecimal digit, letter case not significant (DEDUCED, log entry 6). -/
def hexDigit (c : Char) : Option Nat :=
  if 48 ≤ c.toNat ∧ c.toNat ≤ 57 then some (c.toNat - 48)
  else if 65 ≤ c.toNat ∧ c.toNat ≤ 70 then some (c.toNat - 55)
  else if 97 ≤ c.toNat ∧ c.toNat ≤ 102 then some (c.toNat - 87)
  else none

/-- The bytes of an ASCII string, one a character (R56). DEDUCED (log entry 6): a string with another character is refused. -/
def asciiBytes : List Char → Option (List Byte)
  | [] => some []
  | c :: cs =>
    if c.toNat ≤ 127 then (asciiBytes cs).map (BitVec.ofNat 8 c.toNat :: ·) else none

/-- The bytes of an even number of hexadecimal digits, the leftmost pair first (R56). DEDUCED (log entry 6): an odd number of
characters, or one that is no digit, is refused. -/
def hexBytes : List Char → Option (List Byte)
  | [] => some []
  | [_] => none
  | c :: d :: cs =>
    match hexDigit c, hexDigit d with
    | some hi, some lo => (hexBytes cs).map (BitVec.ofNat 8 (16 * hi + lo) :: ·)
    | _, _ => none

/-- The command words of a line; an operand out of range is refused (R55). -/
def assemble : AsmLine → Option (List Nat)
  | .init => some [(encode .init).toNat]
  | .absorb x => if x ≤ 255 then some [(encode (.absorb (BitVec.ofNat 8 x))).toNat] else none
  | .final => some [(encode .final).toNat]
  | .rdh x => if x ≤ 7 then some [(encode (.rdh (BitVec.ofNat 3 x))).toNat] else none
  | .rdstat => some [(encode .rdstat).toNat]
  | .absorbs cs => (asciiBytes cs).map absorbWords
  | .absorbx ds => (hexBytes ds).map absorbWords
  | .rddigest => some rdDigestWords
  | .hash cs => (asciiBytes cs).map sessionWords

/-! ### Text -/

/-- The single quote of a character operand. -/
def singleQuote : Char := Char.ofNat 39

/-- The double quote of a string operand. -/
def doubleQuote : Char := Char.ofNat 34

/-- A line without its comment, the flag saying whether a string is open. DEDUCED (log entry 6): a semicolon between quotes
is a character and starts no comment. A single quote opens a character operand exactly when the second character after it is
a single quote too, so the quoted apostrophe, three single quotes in a row, is one operand and a comment may follow it; any
other single quote outside a string is an ordinary character of the line. -/
def stripComment : Bool → List Char → List Char
  | _, [] => []
  | true, c :: cs => c :: stripComment (decide (c ≠ doubleQuote)) cs
  | false, c :: cs =>
    if c = ';' then []
    else if c = singleQuote then
      match cs with
      | x :: q :: rest =>
        if q = singleQuote then c :: x :: q :: stripComment false rest else c :: stripComment false (x :: q :: rest)
      | short => c :: stripComment false short
    else c :: stripComment (decide (c = doubleQuote)) cs

/-- A blank between the parts of a line. -/
def isBlank (c : Char) : Bool := decide (c = ' ') || decide (c = '\t')

/-- A text without the blanks at its two ends. -/
def trimBlanks (cs : List Char) : List Char := ((cs.dropWhile isBlank).reverse.dropWhile isBlank).reverse

/-- A number from its digits in a base, most significant first. -/
def digitsValue (base : Nat) : Nat → List Char → Option Nat
  | acc, [] => some acc
  | acc, c :: cs =>
    match hexDigit c with
    | some d => if d < base then digitsValue base (base * acc + d) cs else none
    | none => none

/-- An operand: decimal, `0x` hexadecimal, or one printable ASCII character in single quotes where `quoted` (R55). -/
def parseOperand (quoted : Bool) (cs : List Char) : Option Nat :=
  match cs with
  | [] => none
  | ['0', 'x'] => none
  | '0' :: 'x' :: ds => digitsValue 16 0 ds
  | [q, c, q'] =>
    if quoted ∧ q = singleQuote ∧ q' = singleQuote ∧ 32 ≤ c.toNat ∧ c.toNat ≤ 126 then some c.toNat
    else digitsValue 10 0 [q, c, q']
  | _ => digitsValue 10 0 cs

/-- The characters between two double quotes. -/
def parseQuoted (cs : List Char) : Option (List Char) :=
  match cs with
  | q :: rest =>
    match rest.reverse with
    | q' :: inner => if q = doubleQuote ∧ q' = doubleQuote ∧ doubleQuote ∉ inner then some inner.reverse else none
    | [] => none
  | [] => none

/-- The line a mnemonic in capitals and its operand text stand for (R55, R56). -/
def parseMnemonic (mn operand : List Char) : Option AsmLine :=
  if mn = ['I', 'N', 'I', 'T'] then if operand = [] then some .init else none
  else if mn = ['A', 'B', 'S', 'O', 'R', 'B'] then (parseOperand true operand).map .absorb
  else if mn = ['F', 'I', 'N', 'A', 'L'] then if operand = [] then some .final else none
  else if mn = ['R', 'D', 'H'] then (parseOperand false operand).map .rdh
  else if mn = ['R', 'D', 'S', 'T', 'A', 'T'] then if operand = [] then some .rdstat else none
  else if mn = ['A', 'B', 'S', 'O', 'R', 'B', 'S'] then (parseQuoted operand).map .absorbs
  else if mn = ['A', 'B', 'S', 'O', 'R', 'B', 'X'] then some (.absorbx operand)
  else if mn = ['R', 'D', 'D', 'I', 'G', 'E', 'S', 'T'] then if operand = [] then some .rddigest else none
  else if mn = ['H', 'A', 'S', 'H'] then (parseQuoted operand).map .hash
  else none

/-- The command words of one line of text: none for a line the assembler refuses, no word for an empty line (R55). -/
def assembleText (line : List Char) : Option (List Nat) :=
  match trimBlanks (stripComment false line) with
  | [] => some []
  | text =>
    match parseMnemonic ((text.takeWhile (fun c => !isBlank c)).map Char.toUpper)
        (trimBlanks (text.dropWhile (fun c => !isBlank c))) with
    | some l => assemble l
    | none => none

/-! ### Digests -/

/-- Byte `k` of a word, `k = 0` the most significant (R31); a word has no byte above 3, and the function gives byte 3 there
(DESIGN CHOICE, log entry 18). -/
def wordByte (x : Word) (k : Nat) : Byte := x.extractLsb' (24 - 8 * k) 8

/-- A digest as its 32 bytes, big-endian per word, `H[0]` first (R31 (d), R123). -/
def digestBytes (d : Vector Word 8) : List Byte :=
  d.toList.flatMap fun x => [wordByte x 0, wordByte x 1, wordByte x 2, wordByte x 3]

/-- The upper-case hexadecimal digit of a number below 16. -/
def digitChar (x : Nat) : Char := if x < 10 then Char.ofNat (48 + x) else Char.ofNat (55 + x)

/-- A word as eight hexadecimal digits, the most significant first, leading zeros kept (R123). -/
def wordHex (x : Word) : List Char :=
  [wordByte x 0, wordByte x 1, wordByte x 2, wordByte x 3].flatMap fun y =>
    [digitChar (y.toNat / 16), digitChar (y.toNat % 16)]

/-- The rendering without separators, 64 digits (R123). -/
def digestHex (d : Vector Word 8) : List Char := d.toList.flatMap wordHex

end Sys2Proof.Machine
end

