-- ==== Sys2Proof/Safety.lean ====
section
/-! DEFINITION. What claims about the machine are stated in: the relations between SEQ, N, RET and LEN of every reachable
state (10_state.md R26), the registers a later step can still read (R25), the table of SEQ transitions
(45_driver_commands.md R118) and the end of a run (70_reset_and_hazards.md R159). -/

namespace Sys2Proof.Machine

/-- `(LEN / 8) mod 64` (R26). -/
def State.lenMod (s : State) : Nat := s.len.toNat / 8 % 64

/-- While a block the host filled is processed (RET = ACCEPT) the message so far is a whole number of blocks. -/
def State.blockRet (s : State) : Bool := decide (s.ret = .accept → s.lenMod = 0)

/-- The row of rule R26's table for the code in SEQ; the clause on LEN during a block's processing is the model's own
strengthening (DEDUCED, log entry 7). -/
def State.phaseInv (s : State) : Bool :=
  match decodeSeq s.seq with
  | .error _ => false
  | .ok .idle => decide (s.n = 0#7 ∧ s.ret = .accept ∧ s.len = 0#64)
  | .ok .accept => decide (s.n.toNat ≤ 63 ∧ s.n.toNat = s.lenMod ∧ s.ret = .accept)
  | .ok .padOne => decide (s.n.toNat ≤ 63 ∧ s.n.toNat = s.lenMod ∧ s.ret = .accept)
  | .ok .padZero => decide (s.n.toNat ≤ 63 ∧ s.ret ≠ .done)
  | .ok (.padLen i) => decide (s.n.toNat = 56 + i.toNat ∧ s.ret ≠ .done)
  | .ok .parse => decide (s.n = 64#7) && s.blockRet
  | .ok .loadv => decide (s.n = 0#7) && s.blockRet
  | .ok .feedfwd => decide (s.n = 0#7) && s.blockRet
  | .ok (.expandLow _) => decide (s.n = 0#7) && s.blockRet
  | .ok (.expandHigh _) => decide (s.n = 0#7) && s.blockRet
  | .ok (.round _) => decide (s.n = 0#7) && s.blockRet
  | .ok .done => decide (s.n = 0#7 ∧ s.ret = .done)
  | .ok .err => decide (s.n = 63#7 ∧ s.len = lenMax ∧ s.ret = .accept)
  | .ok _ => false

/-- The invariant of reachable states (R26): the row of the table, and LEN a multiple of 8. -/
def State.inv (s : State) : Bool := decide (s.len.toNat % 8 = 0) && s.phaseInv

/-! ### Registers that a later step can still read (R25) -/

/-- How many bytes of B hold bytes of the block being assembled (R25). -/
def State.liveB (s : State) : Nat :=
  match decodeSeq s.seq with
  | .ok .accept => s.n.toNat
  | .ok .padOne => s.n.toNat
  | .ok .padZero => s.n.toNat
  | .ok (.padLen _) => s.n.toNat
  | .ok .parse => 64
  | _ => 0

/-- How many words of W are written for the block being processed (R25). -/
def State.liveW (s : State) : Nat :=
  match decodeSeq s.seq with
  | .ok (.expandLow t) => t.toNat
  | .ok (.expandHigh t) => t.toNat
  | .ok .loadv => 64
  | .ok (.round _) => 64
  | _ => 0

/-- V is in use: LOADV has written it for this block and FEEDFWD has not yet read it (R25). -/
def State.liveV (s : State) : Bool :=
  match decodeSeq s.seq with
  | .ok (.round _) => true
  | .ok .feedfwd => true
  | _ => false

/-- H is in use: a session has been opened since the last reset (R25). -/
def State.liveH (s : State) : Bool := decide (s.seq ≠ seqIdle)

/-- Two states that differ at most in register contents no later step reads before writing them (R25). -/
def State.Agree (s t : State) : Prop :=
  s.seq = t.seq ∧ s.ret = t.ret ∧ s.n = t.n ∧ s.len = t.len ∧ s.port = t.port ∧ s.inputs = t.inputs ∧
  (s.liveH = true → s.h = t.h) ∧ (s.liveV = true → s.v = t.v) ∧
  (∀ j : BitVec 6, j.toNat < s.liveB → s.bAt j = t.bAt j) ∧
  (∀ k : BitVec 6, k.toNat < s.liveW → s.wAt k = t.wAt k)

/-! ### Control transfer (R118) -/

/-- A row of rule R118's table whose cause is the host command `i`. -/
def State.hostTransition (i : Instr) (s t : State) : Prop :=
  (i = .init ∧ s.isRest = true ∧ t.seq = seqAccept) ∨
  (∃ bb, i = .absorb bb ∧ s.seq = seqAccept ∧ s.len ≠ lenMax ∧ s.n.toNat ≤ 62 ∧ t.seq = seqAccept) ∨
  (∃ bb, i = .absorb bb ∧ s.seq = seqAccept ∧ s.len ≠ lenMax ∧ s.n = 63#7 ∧ t.seq = seqParse ∧ t.ret = .accept) ∨
  (∃ bb, i = .absorb bb ∧ s.seq = seqAccept ∧ s.len = lenMax ∧ t.seq = seqErr) ∨
  (i = .final ∧ s.seq = seqAccept ∧ t.seq = seqPadOne)

/-- A row of rule R118's table whose cause is a micro-operation. -/
def State.engineTransition (s t : State) : Prop :=
  (s.seq = seqPadOne ∧ s.n.toNat ≤ 62 ∧ t.seq = seqPadZero) ∨
  (s.seq = seqPadOne ∧ s.n = 63#7 ∧ t.seq = seqParse ∧ t.ret = .padZero) ∨
  (s.seq = seqPadZero ∧ s.n = 56#7 ∧ t.seq = seqPadLen 0#3) ∨
  (s.seq = seqPadZero ∧ s.n.toNat ≤ 62 ∧ s.n ≠ 56#7 ∧ t.seq = seqPadZero) ∨
  (s.seq = seqPadZero ∧ s.n = 63#7 ∧ t.seq = seqParse ∧ t.ret = .padZero) ∨
  (∃ i : BitVec 3, i.toNat ≤ 6 ∧ s.seq = seqPadLen i ∧ t.seq = seqPadLen (i + 1#3)) ∨
  (s.seq = seqPadLen 7#3 ∧ t.seq = seqParse ∧ t.ret = .done) ∨
  (s.seq = seqParse ∧ t.seq = seqExpand 16#6) ∨
  (∃ k : BitVec 6, 16 ≤ k.toNat ∧ k.toNat ≤ 62 ∧ s.seq = seqExpand k ∧ t.seq = seqExpand (k + 1#6)) ∨
  (s.seq = seqExpand 63#6 ∧ t.seq = seqLoadv) ∨
  (s.seq = seqLoadv ∧ t.seq = seqRound 0#6) ∨
  (∃ k : BitVec 6, k.toNat ≤ 62 ∧ s.seq = seqRound k ∧ t.seq = seqRound (k + 1#6)) ∨
  (s.seq = seqRound 63#6 ∧ t.seq = seqFeedfwd) ∨
  (s.seq = seqFeedfwd ∧ s.ret = .accept ∧ t.seq = seqAccept) ∨
  (s.seq = seqFeedfwd ∧ s.ret = .padZero ∧ t.seq = seqPadZero) ∨
  (s.seq = seqFeedfwd ∧ s.ret = .done ∧ t.seq = seqDone)

/-! ### Runs -/

/-- The step answers the command it decides with this response code (30_encoding.md R46). -/
def Answers (s : State) (r : Host.Outcome State Fault Refusal) (c : Code) : Prop :=
  ∃ t d, r = .next t ∧ t.responses = s.responses ++ [⟨c, d⟩]

/-- The step leaves the command encoded as `c` waiting on the port and nothing else changed (R153). -/
def Holds (s : State) (r : Host.Outcome State Fault Refusal) (c : CodeWord) : Prop :=
  r = .next { s with port := some c.toNat }

/-- The registers of the engine are the same in both states (R21). -/
def State.SameEngine (s t : State) : Prop :=
  s.h = t.h ∧ s.v = t.v ∧ s.w = t.w ∧ s.b = t.b ∧ s.n = t.n ∧ s.len = t.len ∧ s.seq = t.seq ∧ s.ret = t.ret

/-- The sixteen hexadecimal digits, as the spec writes them, with their values (30_encoding.md R56). -/
def hexDigitValues : List (Char × Nat) :=
  [('0', 0), ('1', 1), ('2', 2), ('3', 3), ('4', 4), ('5', 5), ('6', 6), ('7', 7),
   ('8', 8), ('9', 9), ('A', 10), ('B', 11), ('C', 12), ('D', 13), ('E', 14), ('F', 15)]

/-- A word on the port that waits while the engine is busy: a command other than RDSTAT (R110). -/
def waits (w : Nat) : Bool :=
  match decodeCommand w with
  | .ok i => decide (i ≠ .rdstat)
  | .error _ => false

/-- No host event is to come, and the port is empty or holds a command that waits: the engine runs by itself. -/
def State.quiet (s : State) : Bool :=
  s.inputs.isEmpty && (match s.port with | none => true | some w => waits w)

/-- A run has ended: every command has returned its response and SEQ is a rest code (R159). DESIGN CHOICE (log entry 19): the
spec speaks of commands only; here the whole list of host events must be used up, so a resting state with nothing but a pass
or a reset still to come has not ended. -/
def State.runEnded (s : State) : Bool := s.inputs.isEmpty && s.port.isNone && s.isRest

end Sys2Proof.Machine
end

