-- ==== Sys2Proof/Certificates/Slice0/Obligations.lean ====
section
/-! DEFINITION. The statements about the machine, each from a rule of the spec named in its docstring. Equations give the
whole next state, so each says the result, that the instruction completes, and what it leaves unchanged. -/

open Sys2Proof Sys2Proof.Machine

/-! ### Encoding -/

/-- Decoding the encoding of a well-formed instruction gives it back, with every operand at every value (R45 to R52). -/
def Obligations.DecodeOfEncodeIsTheInstruction : Prop :=
  ∀ i : Instr, i.wellFormed = true → decodeCodeWord (encode i) = .ok i

/-- What decodes is well-formed and is the encoding of what it decodes to: each word has one meaning (R45 to R53). -/
def Obligations.EncodeOfDecodeIsTheWord : Prop :=
  ∀ (c : CodeWord) (i : Instr), decodeCodeWord c = .ok i → i.wellFormed = true ∧ encode i = c

/-- R47: a 16-bit word is the command of a row exactly when `w & mask = match`, its operands the fields of R45;
267 words are legal. -/
def Obligations.CommandWordMatchesItsRow : Prop :=
  (∃ l : List Nat, l.Nodup ∧ l.length = 267 ∧ ∀ w : Nat, w ∈ l ↔ ∃ i, decodeCommand w = .ok i) ∧
  ∀ w : BitVec 16,
    (decodeCommand w.toNat = .ok .init ↔ w &&& 0xFFFF#16 = 0x1000#16) ∧
    (∀ bb, decodeCommand w.toNat = .ok (.absorb bb) ↔ (w &&& 0xFF00#16 = 0x2000#16 ∧ bb = w.extractLsb' 0 8)) ∧
    (decodeCommand w.toNat = .ok .final ↔ w &&& 0xFFFF#16 = 0x3000#16) ∧
    (∀ k, decodeCommand w.toNat = .ok (.rdh k) ↔ (w &&& 0xF8FF#16 = 0x4000#16 ∧ k = w.extractLsb' 8 3)) ∧
    (decodeCommand w.toNat = .ok .rdstat ↔ w &&& 0xFFFF#16 = 0x5000#16)

/-- 30_encoding.md section 4: the illegal words, exhaustively, a word of more than 16 bits among them. -/
def Obligations.IllegalWordsAreExactlyTheListed : Prop :=
  (∀ w : Nat, 65536 ≤ w → decodeCommand w = .error .bitAbove15) ∧
  (∀ w : BitVec 16, (∃ e, decodeCommand w.toNat = .error e) ↔
    (w.extractLsb' 12 4 = 0x0#4 ∨ 0x6#4 ≤ w.extractLsb' 12 4 ∨
     ((w.extractLsb' 12 4 = 0x1#4 ∨ w.extractLsb' 12 4 = 0x3#4 ∨ w.extractLsb' 12 4 = 0x5#4) ∧
        (w.extractLsb' 8 4 ≠ 0#4 ∨ w.extractLsb' 0 8 ≠ 0#8)) ∨
     (w.extractLsb' 12 4 = 0x2#4 ∧ w.extractLsb' 8 4 ≠ 0#4) ∨
     (w.extractLsb' 12 4 = 0x4#4 ∧ (8#4 ≤ w.extractLsb' 8 4 ∨ w.extractLsb' 0 8 ≠ 0#8))))

/-- R53: the reserved codes, exhaustively, 127 of them; a state whose SEQ is reserved has no step at all (the reset event is no
step of an agent, R10). -/
def Obligations.ReservedCodesAreStuck : Prop :=
  (∀ c : BitVec 8, (∃ e, decodeSeq c = .error e) ↔
    (c = 0x07#8 ∨ (0x0A#8 ≤ c ∧ c ≤ 0x0F#8) ∨ (0x18#8 ≤ c ∧ c ≤ 0x3F#8) ∨ (0x40#8 ≤ c ∧ c ≤ 0x4F#8) ∨ 0xC0#8 ≤ c)) ∧
  ((List.range 256).filter (fun c => !(decodeSeq (BitVec.ofNat 8 c)).isOk)).length = 127 ∧
  (∀ s : State, s.isReserved = true → (∀ rest, s.inputs ≠ .reset :: rest) → step s = .fault .reservedSeq)

/-- 30_encoding.md section 5: no step, whatever the registers hold, writes a reserved code into SEQ. -/
def Obligations.NoStepEntersAReservedCode : Prop :=
  ∀ s t : State, step s = .next t → t.isReserved = false

/-- Words written out from the encoding tables (R47, R52), each with the instruction it stands for. -/
def Obligations.SampleWordsDecodeAsTheTablesSay : Prop :=
  decodeTableWord 16 0x1000 = some .init ∧ decodeTableWord 16 0x2061 = some (.absorb 0x61#8) ∧
  decodeTableWord 16 0x3000 = some .final ∧ decodeTableWord 16 0x4300 = some (.rdh 3#3) ∧
  decodeTableWord 16 0x5000 = some .rdstat ∧ decodeTableWord 16 0x4800 = none ∧
  decodeTableWord 8 0x04 = some .parse ∧ decodeTableWord 8 0x13 = some (.padLen 3#3) ∧
  decodeTableWord 8 0x5F = some (.expandLow 31#6) ∧ decodeTableWord 8 0x60 = some (.expandHigh 32#6) ∧
  decodeTableWord 8 0xBF = some (.round 63#6) ∧ decodeTableWord 8 0x07 = none

/-! ### The combinational functions -/

/-- R65: addition is modulo 2^32, commutative and associative. -/
def Obligations.AddIsModuloTwoToThe32 : Prop :=
  (∀ x y : Word, (add32 x y).toNat = (x.toNat + y.toNat) % 2 ^ 32) ∧
  (∀ x y : Word, add32 x y = add32 y x) ∧ (∀ x y z : Word, add32 (add32 x y) z = add32 x (add32 y z))

/-- R66 and R67, bit by bit: bit `i` of `rotr(x, n)` is bit `(i + n) mod 32` of `x`; bit `i` of `x >> n` is bit `i + n` of `x`,
or 0 above the top. -/
def Obligations.RotateAndShiftMoveBits : Prop :=
  (∀ (x : Word) (n i : Nat), i < 32 → (rotr x n).getLsbD i = x.getLsbD ((i + n) % 32)) ∧
  (∀ (x : Word) (n : Nat), 1 ≤ n → n ≤ 31 → rotr x n = (x >>> n ||| x <<< (32 - n))) ∧
  (∀ (x : Word) (n i : Nat), i < 32 → (shr x n).getLsbD i = (decide (i + n ≤ 31) && x.getLsbD (i + n))) ∧
  (∀ (x : Word) (n : Nat), (shr x n).toNat = x.toNat / 2 ^ n)

/-- R69 to R72, bit by bit: which bits of the operand each bit of the four sigma functions is the exclusive-or of. -/
def Obligations.SigmaFunctionsCombineTheNamedBits : Prop :=
  ∀ (x : Word) (i : Nat), i < 32 →
    (bsig0 x).getLsbD i =
      ((x.getLsbD ((i + 2) % 32) ^^ x.getLsbD ((i + 13) % 32)) ^^ x.getLsbD ((i + 22) % 32)) ∧
    (bsig1 x).getLsbD i =
      ((x.getLsbD ((i + 6) % 32) ^^ x.getLsbD ((i + 11) % 32)) ^^ x.getLsbD ((i + 25) % 32)) ∧
    (ssig0 x).getLsbD i =
      ((x.getLsbD ((i + 7) % 32) ^^ x.getLsbD ((i + 18) % 32)) ^^ (decide (i + 3 ≤ 31) && x.getLsbD (i + 3))) ∧
    (ssig1 x).getLsbD i =
      ((x.getLsbD ((i + 17) % 32) ^^ x.getLsbD ((i + 19) % 32)) ^^ (decide (i + 10 ≤ 31) && x.getLsbD (i + 10)))

/-- R73 and R74, bit by bit: Ch takes the bit of `y` where `x` has a 1 and of `z` where it has a 0; Maj is 1 exactly where at least two operands are, and is symmetric. -/
def Obligations.ChChoosesAndMajIsTheMajority : Prop :=
  (∀ (x y z : Word) (i : Nat), i < 32 → (ch x y z).getLsbD i = if x.getLsbD i then y.getLsbD i else z.getLsbD i) ∧
  (∀ (x y z : Word) (i : Nat), i < 32 →
    ((maj x y z).getLsbD i = true ↔
      2 ≤ (x.getLsbD i).toNat + (y.getLsbD i).toNat + (z.getLsbD i).toNat)) ∧
  (∀ x y z : Word, maj x y z = maj y x z ∧ maj x y z = maj x z y)

/-- 40_constant_roms.md section 3 (the definition from general knowledge): each ROM word is the first 32 bits of the
fractional part of the square root (IV) or cube root (K) of its prime. -/
def Obligations.RomWordsAreRootFractionsOfPrimes : Prop :=
  (primesBelow 312).length = 64 ∧ (∀ p ∈ primesBelow 312, p.Prime) ∧
  (∀ i : BitVec 3, ∃ r p, (primesBelow 312)[i.toNat]? = some p ∧
    r ^ 2 ≤ p * 2 ^ 64 ∧ p * 2 ^ 64 < (r + 1) ^ 2 ∧ ivAt i = BitVec.ofNat 32 r) ∧
  (∀ t : BitVec 6, ∃ r p, (primesBelow 312)[t.toNat]? = some p ∧
    r ^ 3 ≤ p * 2 ^ 96 ∧ p * 2 ^ 96 < (r + 1) ^ 3 ∧ kAt t = BitVec.ofNat 32 r)

/-! ### Host commands -/

/-- R112: INIT at every rest code opens a session and changes nothing else. (At a busy code: CommandsAreHeldWhileBusy.) -/
def Obligations.InitOpensASession : Prop :=
  ∀ s : State, s.isRest = true → exec .init s = .next
    { s with h := #v[0x6A09E667#32, 0xBB67AE85#32, 0x3C6EF372#32, 0xA54FF53A#32,
                     0x510E527F#32, 0x9B05688C#32, 0x1F83D9AB#32, 0x5BE0CD19#32],
             n := 0#7, len := 0#64, ret := .accept, seq := 0x01#8, port := none,
             responses := s.responses ++ [⟨.ok, 0#32⟩] }

/-- R113: every outcome of a decided ABSORB: TOO_LARGE at the length limit, a byte that fills the buffer, a byte that does not,
BAD_PHASE in IDLE and DONE, TOO_LARGE in ERR. (At a busy code: CommandsAreHeldWhileBusy.) -/
def Obligations.AbsorbAppendsOneByte : Prop :=
  (∀ (bb : Byte) (s : State), s.seq = 0x01#8 → s.len = 0xFFFFFFFFFFFFFFF8#64 → exec (.absorb bb) s = .next
    { s with seq := 0x03#8, port := none, responses := s.responses ++ [⟨.tooLarge, 0#32⟩] }) ∧
  (∀ (bb : Byte) (s : State), s.seq = 0x01#8 → s.len ≠ 0xFFFFFFFFFFFFFFF8#64 → s.n.toNat ≤ 62 →
    exec (.absorb bb) s = .next
    { s with b := s.b.setIfInBounds s.n.toNat bb, n := s.n + 1#7, len := s.len + 8#64, port := none,
             responses := s.responses ++ [⟨.ok, 0#32⟩] }) ∧
  (∀ (bb : Byte) (s : State), s.seq = 0x01#8 → s.len ≠ 0xFFFFFFFFFFFFFFF8#64 → s.n = 63#7 →
    exec (.absorb bb) s = .next
    { s with b := s.b.setIfInBounds 63 bb, n := 64#7, len := s.len + 8#64, ret := .accept, seq := 0x04#8, port := none,
             responses := s.responses ++ [⟨.ok, 0#32⟩] }) ∧
  (∀ (bb : Byte) (s : State), s.seq = 0x00#8 ∨ s.seq = 0x02#8 → exec (.absorb bb) s = .next
    { s with port := none, responses := s.responses ++ [⟨.badPhase, 0#32⟩] }) ∧
  (∀ (bb : Byte) (s : State), s.seq = 0x03#8 → exec (.absorb bb) s = .next
    { s with port := none, responses := s.responses ++ [⟨.tooLarge, 0#32⟩] })

/-- R114: FINAL in ACCEPT starts the padder and changes nothing else; BAD_PHASE in IDLE and DONE, TOO_LARGE in ERR.
(At a busy code: CommandsAreHeldWhileBusy.) -/
def Obligations.FinalStartsThePadder : Prop :=
  (∀ s : State, s.seq = 0x01#8 → exec .final s = .next
    { s with seq := 0x08#8, port := none, responses := s.responses ++ [⟨.ok, 0#32⟩] }) ∧
  (∀ s : State, s.seq = 0x00#8 ∨ s.seq = 0x02#8 → exec .final s = .next
    { s with port := none, responses := s.responses ++ [⟨.badPhase, 0#32⟩] }) ∧
  (∀ s : State, s.seq = 0x03#8 → exec .final s = .next
    { s with port := none, responses := s.responses ++ [⟨.tooLarge, 0#32⟩] })

/-- R115: RDH in DONE returns `H[i]` and changes no register; BAD_PHASE in IDLE and ACCEPT, TOO_LARGE in ERR; the
words with IDX 8 to 15 are no RDH. (At a busy code: CommandsAreHeldWhileBusy.) -/
def Obligations.RdhReturnsADigestWord : Prop :=
  (∀ (i : BitVec 3) (s : State), s.seq = 0x02#8 → exec (.rdh i) s = .next
    { s with port := none, responses := s.responses ++ [⟨.ok, s.hAt i⟩] }) ∧
  (∀ (i : BitVec 3) (s : State), s.seq = 0x00#8 ∨ s.seq = 0x01#8 → exec (.rdh i) s = .next
    { s with port := none, responses := s.responses ++ [⟨.badPhase, 0#32⟩] }) ∧
  (∀ (i : BitVec 3) (s : State), s.seq = 0x03#8 → exec (.rdh i) s = .next
    { s with port := none, responses := s.responses ++ [⟨.tooLarge, 0#32⟩] }) ∧
  (∀ i : BitVec 4, 8 ≤ i.toNat → decodeCommand (0x4000 + 0x100 * i.toNat) = .error .indexOutOfRange)

/-- R110 test 3 and R153, in the model's reading (DEDUCED, log entry 8; no rule of the spec says what exec of a command is at a
busy code): exec of a command other than RDSTAT at a busy code puts the command's own word on the port and changes nothing
else, so it returns no response. What a step does while a command is held is StepRunsTheDecodedInstruction. -/
def Obligations.CommandsAreHeldWhileBusy : Prop :=
  (∀ s : State, s.isBusy = true →
    exec .init s = .next { s with port := some 0x1000 } ∧
    (∀ bb : Byte, exec (.absorb bb) s = .next { s with port := some (0x2000 + bb.toNat) }) ∧
    exec .final s = .next { s with port := some 0x3000 } ∧
    (∀ i : BitVec 3, exec (.rdh i) s = .next { s with port := some (0x4000 + 0x100 * i.toNat) })) ∧
  (∀ (i : Instr) (s t : State), exec i s = .next t → i ≠ .rdstat → s.isBusy = true → t.responses = s.responses)

/-- R116: RDSTAT is answered with STATUS in every state, and a step answers it at every defined code, never holding it. -/
def Obligations.RdstatAnswersStatusAtOnce : Prop :=
  (∀ s : State, exec .rdstat s = .next
    { s with port := none, responses := s.responses ++ [⟨.ok, s.statusWord⟩] }) ∧
  (∀ s : State, s.isReserved = false → s.inputs = [] → s.port = some 0x5000 → step s = .next
    { s with port := none, responses := s.responses ++ [⟨.ok, s.statusWord⟩] })

/-- R19: the fields of STATUS, functions of SEQ and N alone, and its reserved bits. -/
def Obligations.StatusFieldsAreFunctionsOfSeqAndN : Prop :=
  ∀ s : State,
    (s.statusWord.getLsbD 0 = true ↔ s.seq ≤ 3#8) ∧
    (s.statusWord.getLsbD 1 = true ↔ s.seq = 0x01#8) ∧
    (s.statusWord.getLsbD 2 = true ↔ s.seq = 0x02#8) ∧
    (s.statusWord.getLsbD 3 = true ↔ s.seq = 0x03#8) ∧
    s.statusWord.extractLsb' 4 4 = 0#4 ∧ s.statusWord.extractLsb' 8 8 = s.seq ∧
    s.statusWord.extractLsb' 16 7 = s.n ∧ s.statusWord.extractLsb' 23 9 = 0#9

/-- 10_state.md section 6: at most one of ACCEPTING, VALID and ERR is 1, and each implies READY. -/
def Obligations.StatusFlagsAreExclusive : Prop :=
  ∀ s : State,
    (s.statusWord.getLsbD 1).toNat + (s.statusWord.getLsbD 2).toNat + (s.statusWord.getLsbD 3).toNat
      ≤ (s.statusWord.getLsbD 0).toNat

/-- R111: the outcome of every command in every phase, and the hold at every busy code: that exec of a command there puts its
own word on the port is the model's reading (DEDUCED, log entry 8). -/
def Obligations.OutcomeOfEveryCommandInEveryPhase : Prop :=
  ∀ (s : State) (bb : Byte) (i : BitVec 3), s.isReserved = false →
    (s.seq = 0x00#8 → Answers s (exec .init s) .ok ∧ Answers s (exec (.absorb bb) s) .badPhase ∧
      Answers s (exec .final s) .badPhase ∧ Answers s (exec (.rdh i) s) .badPhase) ∧
    (s.seq = 0x01#8 → Answers s (exec .init s) .ok ∧
      (s.n.toNat ≤ 63 → Answers s (exec (.absorb bb) s) (if s.len = lenMax then .tooLarge else .ok)) ∧
      Answers s (exec .final s) .ok ∧ Answers s (exec (.rdh i) s) .badPhase) ∧
    (s.seq = 0x02#8 → Answers s (exec .init s) .ok ∧ Answers s (exec (.absorb bb) s) .badPhase ∧
      Answers s (exec .final s) .badPhase ∧ Answers s (exec (.rdh i) s) .ok) ∧
    (s.seq = 0x03#8 → Answers s (exec .init s) .ok ∧ Answers s (exec (.absorb bb) s) .tooLarge ∧
      Answers s (exec .final s) .tooLarge ∧ Answers s (exec (.rdh i) s) .tooLarge) ∧
    (s.isBusy = true → Holds s (exec .init s) (encode .init) ∧ Holds s (exec (.absorb bb) s) (encode (.absorb bb)) ∧
      Holds s (exec .final s) (encode .final) ∧ Holds s (exec (.rdh i) s) (encode (.rdh i))) ∧
    Answers s (exec .rdstat s) .ok ∧
    (∀ w e, s.inputs = [] → s.port = some w → decodeCommand w = .error e → Answers s (step s) .illegalCmd)

/-- 45_driver_commands.md section 1: the only state-changing outcomes of a command are the OK outcomes of INIT, ABSORB and
FINAL, and the TOO_LARGE outcome of ABSORB in ACCEPT, which changes SEQ alone. -/
def Obligations.OnlyAcceptedCommandsChangeTheEngine : Prop :=
  ∀ (i : Instr) (s t : State),
    (i = .init ∨ (∃ bb, i = .absorb bb) ∨ i = .final ∨ (∃ k, i = .rdh k) ∨ i = .rdstat) → exec i s = .next t →
    s.SameEngine t ∨
    (t.responses = s.responses ++ [⟨.ok, 0#32⟩] ∧ (i = .init ∨ (∃ bb, i = .absorb bb) ∨ i = .final)) ∨
    ((∃ bb, i = .absorb bb) ∧ s.seq = seqAccept ∧ s.len = lenMax ∧ t.responses = s.responses ++ [⟨.tooLarge, 0#32⟩] ∧
      t.seq = seqErr ∧ (s.setSeq seqErr).SameEngine t)

/-- R46: the layout of a response's 34 bits; an instruction returns at most one, whose DATA is the word read
for an OK answer to RDH and RDSTAT and 0 in every other; an illegal word is answered with DATA 0. (That a held command and a
micro-operation return none: CommandsAreHeldWhileBusy, EngineStepsLeaveThePortAlone.) -/
def Obligations.ResponseDataIsZeroUnlessRead : Prop :=
  (∀ r : Response, r.bits.extractLsb' 0 32 = r.data ∧
    (r.bits.extractLsb' 32 2).toNat =
      match r.code with | .ok => 0 | .illegalCmd => 1 | .badPhase => 2 | .tooLarge => 3) ∧
  (∀ (i : Instr) (s t : State), exec i s = .next t →
    t.responses = s.responses ∨ ∃ r, t.responses = s.responses ++ [r] ∧
      ((∃ k, i = .rdh k ∧ r = ⟨.ok, s.hAt k⟩) ∨ (i = .rdstat ∧ r = ⟨.ok, s.statusWord⟩) ∨
       (i ≠ .rdstat ∧ r.data = 0#32 ∧ (r.code = .ok → ∀ k, i ≠ .rdh k)))) ∧
  (∀ (s : State) (w : Nat) (e : DecodeError), s.isReserved = false → s.inputs = [] → s.port = some w →
    decodeCommand w = .error e →
    step s = .next { s with port := none, responses := s.responses ++ [⟨.illegalCmd, 0#32⟩] })

/-! ### Rejections -/

/-- R131: an illegal word, standing on the port or just presented, is answered ILLEGAL_CMD at once at every defined code,
rest or busy, and no register changes. -/
def Obligations.IllegalWordIsRejectedAtOnce : Prop :=
  (∀ (s : State) (w : Nat) (e : DecodeError), s.isReserved = false → decodeCommand w = .error e →
    s.inputs = [] → s.port = some w →
    step s = .next { s with port := none, responses := s.responses ++ [⟨.illegalCmd, 0#32⟩] }) ∧
  (∀ (s : State) (w : Nat) (e : DecodeError) (rest : List HostEvent), s.isReserved = false → decodeCommand w = .error e →
    s.inputs = .command w :: rest → s.port = none →
    step s = .next { s with inputs := rest, responses := s.responses ++ [⟨.illegalCmd, 0#32⟩] })

/-- R132: BAD_PHASE for ABSORB and FINAL in IDLE and DONE, for RDH in IDLE and ACCEPT, with no state change; in ERR these
commands get TOO_LARGE. (At a busy code: CommandsAreHeldWhileBusy.) -/
def Obligations.WrongPhaseIsRejectedWithoutEffect : Prop :=
  ∀ (i : Instr) (s : State),
    ((((∃ bb, i = .absorb bb) ∨ i = .final) ∧ (s.seq = 0x00#8 ∨ s.seq = 0x02#8)) ∨
      ((∃ k, i = .rdh k) ∧ (s.seq = 0x00#8 ∨ s.seq = 0x01#8)) →
      exec i s = .next { s with port := none, responses := s.responses ++ [⟨.badPhase, 0#32⟩] }) ∧
    (((∃ bb, i = .absorb bb) ∨ i = .final ∨ (∃ k, i = .rdh k)) →
      s.seq = 0x03#8 → Answers s (exec i s) .tooLarge)

/-- R133: TOO_LARGE, first and later: the ABSORB at `LEN = 2^64 - 8` changes SEQ alone, to ERR; in ERR every ABSORB, FINAL
and RDH is answered TOO_LARGE with no change, so no digest word is ever returned there. -/
def Obligations.TooLargeEndsTheSession : Prop :=
  (∀ (bb : Byte) (s : State), s.seq = 0x01#8 → s.len = 0xFFFFFFFFFFFFFFF8#64 → exec (.absorb bb) s = .next
    { s with seq := 0x03#8, port := none, responses := s.responses ++ [⟨.tooLarge, 0#32⟩] }) ∧
  (∀ (i : Instr) (s : State), (∃ bb, i = .absorb bb) ∨ i = .final ∨ (∃ k, i = .rdh k) → s.seq = 0x03#8 →
    exec i s = .next { s with port := none, responses := s.responses ++ [⟨.tooLarge, 0#32⟩] })

/-! ### The padder and the parser -/

/-- R81: PAD_ONE appends 0x80; the next code is PAD_ZERO, or PARSE with RET = PAD_ZERO when N was 63. -/
def Obligations.PadOneAppendsTheOneBit : Prop :=
  (∀ s : State, s.n.toNat ≤ 62 → exec .padOne s = .next
    { s with b := s.b.setIfInBounds s.n.toNat 0x80#8, n := s.n + 1#7, seq := 0x09#8 }) ∧
  (∀ s : State, s.n = 63#7 → exec .padOne s = .next
    { s with b := s.b.setIfInBounds 63 0x80#8, n := 64#7, ret := .padZero, seq := 0x04#8 })

/-- R82: PAD_ZERO moves on at N = 56 writing nothing, else appends 0x00 and stays, or parses the full buffer. -/
def Obligations.PadZeroFillsToByte56 : Prop :=
  (∀ s : State, s.n = 56#7 → exec .padZero s = .next { s with seq := 0x10#8 }) ∧
  (∀ s : State, s.n.toNat ≤ 62 → s.n ≠ 56#7 → exec .padZero s = .next
    { s with b := s.b.setIfInBounds s.n.toNat 0x00#8, n := s.n + 1#7, seq := 0x09#8 }) ∧
  (∀ s : State, s.n = 63#7 → exec .padZero s = .next
    { s with b := s.b.setIfInBounds 63 0x00#8, n := 64#7, ret := .padZero, seq := 0x04#8 })

/-- R83: PAD_LEN(i), entered with N = 56 + i, appends byte `i` of LEN, the most significant first; PAD_LEN(7) fills the
buffer, with RET = DONE. -/
def Obligations.PadLenAppendsTheLengthBigEndian : Prop :=
  (∀ (i : BitVec 3) (s : State), i.toNat ≤ 6 → s.n.toNat = 56 + i.toNat → exec (.padLen i) s = .next
    { s with b := s.b.setIfInBounds (56 + i.toNat) ((s.len >>> (56 - 8 * i.toNat)).setWidth 8),
             n := s.n + 1#7, seq := 0x11#8 + i.setWidth 8 }) ∧
  (∀ s : State, s.n = 63#7 → exec (.padLen 7#3) s = .next
    { s with b := s.b.setIfInBounds 63 (s.len.setWidth 8), n := 64#7, ret := .done, seq := 0x04#8 })

/-- R84: PARSE writes the sixteen big-endian words of the block, sets N to 0 and goes to EXPAND(16); every other register,
`W[16..63]` and B keep their values. -/
def Obligations.ParseWritesBigEndianWords : Prop :=
  ∀ s : State, ∃ t, exec .parse s = .next t ∧
    (∀ k : BitVec 4, t.wAt (k.setWidth 6) =
      s.bAt (4#6 * k.setWidth 6) ++ s.bAt (4#6 * k.setWidth 6 + 1#6) ++ s.bAt (4#6 * k.setWidth 6 + 2#6) ++
        s.bAt (4#6 * k.setWidth 6 + 3#6)) ∧
    (∀ k : BitVec 6, 16 ≤ k.toNat → t.wAt k = s.wAt k) ∧
    t = { s with w := t.w, n := 0#7, seq := 0x50#8 }

/-- A byte pushed by ABSORB, PAD_ONE, PAD_ZERO or PAD_LEN goes to `B[N]` and every other byte of B keeps its value
(42_padding_and_parse.md section 1); no other instruction writes B. -/
def Obligations.OnlyThePushedByteOfTheBlockChanges : Prop :=
  ∀ (i : Instr) (s t : State), exec i s = .next t →
    (∀ j : BitVec 6, j.toNat ≠ s.n.toNat → t.bAt j = s.bAt j) ∧
    ((∀ bb, i ≠ .absorb bb) → i ≠ .padOne → i ≠ .padZero → (∀ k, i ≠ .padLen k) → t.b = s.b ∧
      (t.n = s.n ∨ i = .init ∨ i = .parse))

/-! ### The schedule and the rounds -/

/-- R95: EXPAND(t), `t` in 16..63, in the constructor of its table row: the four-term sum into `W[t]`, nothing else but SEQ,
which goes to EXPAND(t + 1), or to LOADV after 63. -/
def Obligations.ExpandWritesOneScheduleWord : Prop :=
  ∀ (t : BitVec 6) (s : State), 16 ≤ t.toNat →
    exec (if t.toNat ≤ 31 then .expandLow t else .expandHigh t) s = .next
      { s with w := s.w.setIfInBounds t.toNat
                 (ssig1 (s.wAt (t - 2#6)) + s.wAt (t - 7#6) + ssig0 (s.wAt (t - 15#6)) + s.wAt (t - 16#6)),
               seq := if t.toNat < 63 then 0x41#8 + t.setWidth 8 else 0x05#8 }

/-- R100: LOADV copies H to V and goes to ROUND(0). -/
def Obligations.LoadvCopiesTheHashState : Prop :=
  ∀ s : State, exec .loadv s = .next { s with v := s.h, seq := 0x80#8 }

/-- R101: ROUND(t): T1 and T2 of the variables before the round, the eight simultaneous writes, then ROUND(t + 1), or
FEEDFWD after 63. -/
def Obligations.RoundShiftsTheWorkingVariables : Prop :=
  ∀ (t : BitVec 6) (s : State) (t1 t2 : Word),
    t1 = s.vAt 7#3 + bsig1 (s.vAt 4#3) + ch (s.vAt 4#3) (s.vAt 5#3) (s.vAt 6#3) + kAt t + s.wAt t →
    t2 = bsig0 (s.vAt 0#3) + maj (s.vAt 0#3) (s.vAt 1#3) (s.vAt 2#3) →
    exec (.round t) s = .next
      { s with v := #v[t1 + t2, s.vAt 0#3, s.vAt 1#3, s.vAt 2#3, s.vAt 3#3 + t1, s.vAt 4#3, s.vAt 5#3, s.vAt 6#3],
               seq := if t.toNat < 63 then 0x81#8 + t.setWidth 8 else 0x06#8 }

/-- R102: FEEDFWD adds V into H word by word and sends SEQ where RET says; nothing else changes. -/
def Obligations.FeedfwdAddsIntoTheHashState : Prop :=
  ∀ s : State, ∃ t, exec .feedfwd s = .next t ∧
    (∀ i : BitVec 3, t.hAt i = s.hAt i + s.vAt i) ∧
    t = { s with h := t.h, seq := match s.ret with | .accept => 0x01#8 | .padZero => 0x09#8 | .done => 0x02#8 }

/-- R117: at a rest code the engine has no step: IDLE, ACCEPT, DONE and ERR leave the state as it is, and so does a step
with no command and no event; at a busy code a step with nothing presented is the micro-operation of the code.
That a waiting engine is a next state is the model's reading (log entry 4). -/
def Obligations.RestCodesWait : Prop :=
  (∀ s : State, exec .idle s = .next s ∧ exec .accept s = .next s ∧ exec .done s = .next s ∧ exec .err s = .next s) ∧
  (∀ s : State, s.isRest = true → s.inputs = [] → s.port = none → step s = .next s) ∧
  (∀ (s : State) (i : Instr), s.isBusy = true → s.inputs = [] → s.port = none → decodeSeq s.seq = .ok i →
    step s = exec i s)

/-! ### Who writes what -/

/-- 20_memory.md section 1 and 10_state.md sections 2 to 4: which instructions write H, V, W, LEN, RET and SEQ; every other
leaves them as they were, and no instruction touches the events to come or the reset count. -/
def Obligations.RegistersHaveOnlyTheirNamedWriters : Prop :=
  ∀ (i : Instr) (s t : State), exec i s = .next t →
    (t.h = s.h ∨ i = .init ∨ i = .feedfwd) ∧
    (t.v = s.v ∨ i = .loadv ∨ ∃ k, i = .round k) ∧
    (t.w = s.w ∨ i = .parse ∨ (∃ k, i = .expandLow k) ∨ ∃ k, i = .expandHigh k) ∧
    (∀ k, i = .expandLow k ∨ i = .expandHigh k → ∀ j, j ≠ k → t.wAt j = s.wAt j) ∧
    (t.len = s.len ∨ i = .init ∨ ∃ bb, i = .absorb bb) ∧
    (t.ret = s.ret ∨ i = .init ∨ (∃ bb, i = .absorb bb) ∨ i = .padOne ∨ i = .padZero ∨ ∃ k, i = .padLen k) ∧
    ((∃ k, i = .rdh k) ∨ i = .rdstat ∨ i = .idle ∨ i = .accept ∨ i = .done ∨ i = .err → t.seq = s.seq) ∧
    t.inputs = s.inputs ∧ t.resets = s.resets

/-- Engine steps neither answer nor disturb the host (R130: micro-operations raise nothing; R153: a command is held): every
micro-operation and rest code leaves the port and the responses as they were. -/
def Obligations.EngineStepsLeaveThePortAlone : Prop :=
  ∀ (c : BitVec 8) (i : Instr) (s t : State), decodeSeq c = .ok i → exec i s = .next t →
    t.port = s.port ∧ t.responses = s.responses

/-- An accepted byte counts 8 bits and the count never wraps: an ABSORB answered OK adds exactly 8 to the value of LEN, and one
that is not (rejected, or held) leaves LEN (10_state.md section 3). -/
def Obligations.LengthGrowsByEightWithoutWrapping : Prop :=
  ∀ (bb : Byte) (s t : State), s.inv = true → exec (.absorb bb) s = .next t →
    (t.responses = s.responses ++ [⟨.ok, 0#32⟩] → t.len.toNat = s.len.toNat + 8) ∧
    (t.responses ≠ s.responses ++ [⟨.ok, 0#32⟩] → t.len = s.len)

/-! ### The step -/

/-- With nothing presented a step is the meaning of the code in SEQ; with a command on the port that is decided now, it is
the meaning of that command; a held command leaves the step to the engine. -/
def Obligations.StepRunsTheDecodedInstruction : Prop :=
  (∀ (s : State) (i : Instr), s.inputs = [] → s.port = none → decodeSeq s.seq = .ok i → step s = exec i s) ∧
  (∀ (s : State) (w : Nat) (i : Instr), s.inputs = [] → s.port = some w → decodeCommand w = .ok i →
    s.isReserved = false → i = .rdstat ∨ s.isRest = true → step s = exec i s) ∧
  (∀ (s : State) (w : Nat) (i j : Instr), s.inputs = [] → s.port = some w → decodeCommand w = .ok i → i ≠ .rdstat →
    s.isBusy = true → decodeSeq s.seq = .ok j → step s = exec j s)

/-- The host's events: `command` puts its word on the free port, `pass` is used up, a `command` waits while another is
outstanding; what then happens is the step of the state with no event to come, the later events untouched. -/
def Obligations.HostEventsPresentCommandsInOrder : Prop :=
  ∀ (s : State) (rest : List HostEvent),
    (∀ w, s.inputs = .command w :: rest → s.port = none →
      step s = advance { s with inputs := rest, port := some w }) ∧
    (∀ w p, s.inputs = .command w :: rest → s.port = some p → step s = advance s) ∧
    (s.inputs = .pass :: rest → step s = advance { s with inputs := rest }) ∧
    (∀ t, advance s = .next t → t.inputs = s.inputs)

/-- An RDSTAT answered while another command may be held changes no register and leaves that command on the port (R110). -/
def Obligations.PollChangesNothingButTheResponses : Prop :=
  ∀ (s : State) (rest : List HostEvent), s.inputs = .poll :: rest → s.isReserved = false →
    step s = .next { s with inputs := rest, responses := s.responses ++ [⟨.ok, s.statusWord⟩] }

/-- The word placed where the next step fetches is the instruction that step runs. -/
def Obligations.PlacedWordRunsNext : Prop :=
  ∀ (s : State) (nbits w : Nat) (i : Instr), decodeTableWord nbits w = some i →
    step (s.withFetchWord nbits w) = exec i (s.withFetchWord nbits w)

/-! ### Reset -/

/-- 10_state.md section 9: the values after any reset, and that INIT and RDSTAT alone are not rejected then. -/
def Obligations.ResetLeavesPhaseIdle : Prop :=
  ∀ (k : Nat) (bb : Byte) (i : BitVec 3),
    (State.afterReset k).seq = 0x00#8 ∧ (State.afterReset k).ret = .accept ∧ (State.afterReset k).n = 0#7 ∧
    (State.afterReset k).len = 0#64 ∧ (State.afterReset k).statusWord = 0x00000001#32 ∧
    Answers (State.afterReset k) (exec .init (State.afterReset k)) .ok ∧
    Answers (State.afterReset k) (exec .rdstat (State.afterReset k)) .ok ∧
    Answers (State.afterReset k) (exec (.absorb bb) (State.afterReset k)) .badPhase ∧
    Answers (State.afterReset k) (exec .final (State.afterReset k)) .badPhase ∧
    Answers (State.afterReset k) (exec (.rdh i) (State.afterReset k)) .badPhase

/-- R150: the reset event in every state, a reserved SEQ included: SEQ, RET, N and LEN at their reset values, a held command
dropped without a response, earlier responses and later events kept, STATUS 0x00000001, and then INIT and RDSTAT the only
commands not rejected. -/
def Obligations.ResetEventFromAnyState : Prop :=
  ∀ (s : State) (rest : List HostEvent) (bb : Byte) (i : BitVec 3), s.inputs = .reset :: rest →
    ∃ t, step s = .next t ∧ t.seq = 0x00#8 ∧ t.ret = .accept ∧ t.n = 0#7 ∧ t.len = 0#64 ∧ t.port = none ∧
      t.responses = s.responses ∧ t.inputs = rest ∧ t.statusWord = 0x00000001#32 ∧
      Answers t (exec .init t) .ok ∧ Answers t (exec .rdstat t) .ok ∧ Answers t (exec (.absorb bb) t) .badPhase ∧
      Answers t (exec .final t) .badPhase ∧ Answers t (exec (.rdh i) t) .badPhase

/-! ### Invariants and whole-machine rules -/

/-- The relations of 10_state.md section 10 hold right after reset. -/
def Obligations.InvariantHoldsAtReset : Prop := State.reset.inv = true

/-- Every step, reset events and polls among them, keeps the relations between SEQ, N, RET and LEN of 10_state.md section 10
(with the strengthening of log entry 7). -/
def Obligations.StepKeepsTheInvariant : Prop :=
  ∀ s t : State, s.inv = true → step s = .next t → t.inv = true

/-- From a state that meets the invariant no step stops: every step answers a next state (60_exceptions.md section 1: no
engine step can fail and a rejection is a response). -/
def Obligations.InvariantStatesNeverStop : Prop :=
  ∀ s : State, s.inv = true → ∃ t, step s = .next t

/-- R118, from every state of the invariant: a step that changes SEQ is the reset event or a row of the table, by the command on
the port or by the engine; and while the engine is busy and nothing is answered at once, every step is an engine row. -/
def Obligations.SequencerFollowsTheTransitionTable : Prop :=
  (∀ s t : State, s.inv = true → step s = .next t → t.seq ≠ s.seq →
    (∃ rest, s.inputs = .reset :: rest ∧ t.seq = seqIdle) ∨
    (∃ w i, s.takeInput.port = some w ∧ decodeCommand w = .ok i ∧ s.hostTransition i t) ∨
    s.engineTransition t) ∧
  (∀ s t : State, s.inv = true → s.isBusy = true → s.quiet = true → step s = .next t → s.engineTransition t)

/-- 70_reset_and_hazards.md section 3: from a busy code, with no host event to come and the port empty or holding a waiting
command, a rest code is reached in at most 303 steps, the held command still waiting and nothing answered. -/
def Obligations.BusyEngineRestsWithin303Steps : Prop :=
  ∀ s : State, s.inv = true → s.isBusy = true → s.quiet = true →
    ∃ k ≤ 303, ∃ t : State, core.run k s = .next t ∧ t.isRest = true ∧ t.port = s.port ∧ t.responses = s.responses

/-- 10_state.md section 10 (written before read): two states of the invariant that differ only in register contents no later step reads take
steps that return the same responses and leave two such states again. So no response depends on what the registers held
after a reset, and no session on the one before it. -/
def Obligations.ResponsesDoNotDependOnUnwrittenRegisters : Prop :=
  ∀ s t s' : State, s.inv = true → s.Agree t → step s = .next s' → ∃ t', step t = .next t' ∧ s'.Agree t' ∧
    ∃ new, s'.responses = s.responses ++ new ∧ t'.responses = t.responses ++ new

/-- 10_state.md section 8 (no partial results): outside phase DONE the hash state has no influence on a step's responses nor on
anything but H and V. -/
def Obligations.HashStateIsHiddenOutsideDone : Prop :=
  ∀ (s s' : State) (x : Vector Word 8), s.seq ≠ seqDone → step s = .next s' →
    ∃ t', step (s.setH x) = .next t' ∧ t'.responses = s'.responses ∧ (t'.setH s'.h).setV s'.v = s'

/-! ### Closed forms -/

/-- 42_padding_and_parse.md section 4: the padded length is a positive multiple of 64, its last 8 bytes are the bit count
big-endian, the message is its beginning, and lengths 55 and 56 fall on the two sides of the extra block. Up to `2^61 - 1`
bytes, R88's domain, the count is exact; what the function gives beyond is the model's choice (log entry 18). -/
def Obligations.PaddedMessageIsWholeBlocks : Prop :=
  (∀ m : List Byte, (padMessage m).length = 64 * nblocks m.length ∧ 0 < nblocks m.length ∧
    (padMessage m).take (m.length + 1) = m ++ [0x80#8] ∧
    (padMessage m).drop (64 * nblocks m.length - 8) = be64 (BitVec.ofNat 64 (8 * m.length)) ∧
    (m.length < 2 ^ 61 → (BitVec.ofNat 64 (8 * m.length)).toNat = 8 * m.length)) ∧
  (∀ l : Nat, nblocks l = l / 64 + (if l % 64 ≤ 55 then 1 else 2))

/-- 43_message_schedule.md, the closed form: the schedule of a block meets its two equations. -/
def Obligations.ScheduleMeetsItsRecurrence : Prop :=
  ∀ (b : Vector Byte 64),
    (∀ k : BitVec 4, (sched b)[k.toNat]? = some (memRead b k)) ∧
    (∀ t : BitVec 6, 16 ≤ t.toNat → (sched b)[t.toNat]? = some (expandWord (sched b) t))

/-- 44_compression.md, the closed form: from PARSE, undisturbed, the 115 micro-operations of a block leave
`H = compress(H, B)`, N = 0, SEQ = RET's code, W the block's schedule, V the variables after round 63, and LEN, RET, B and
the port as they were. -/
def Obligations.BlockProcessingComputesCompress : Prop :=
  ∀ s : State, s.seq = seqParse → s.quiet = true →
    core.run 115 s = .next
      { s with h := compress s.h s.b, v := roundsUpTo s.h (sched s.b) 64, w := sched s.b, n := 0#7, seq := s.ret.code }

/-- 45_driver_commands.md section 4: from any rest state with a free port, the canonical session of a message of at most
2^61 - 1 bytes takes one host step a command and exactly `115 * nblocks + z + 10` engine steps: the run has ended after so many and not one
step earlier (nor before: an ended run waits, log entry 4). Every command returns OK, the eight RDH responses carry sha256 of
the message in order, and the machine ends in DONE with the digest in H. -/
def Obligations.CanonicalSessionReturnsSha256 : Prop :=
  ∀ (m : List Byte) (s : State), m.length < 2 ^ 61 → s.isRest = true → s.port = none →
    s.inputs = (sessionWords m).map .command →
    (∃ u : State, core.run (m.length + 9 + engineSteps m.length) s = .next u ∧ u.runEnded = false) ∧
    ∃ t : State, core.run (m.length + 10 + engineSteps m.length) s = .next t ∧
      t.responses = s.responses ++ List.replicate (m.length + 2) ⟨.ok, 0#32⟩ ++
        (sha256 m).toList.map (fun x => ⟨.ok, x⟩) ∧
      t.h = sha256 m ∧ t.seq = seqDone ∧ t.n = 0#7 ∧ t.ret = .done ∧ t.len = BitVec.ofNat 64 (8 * m.length) ∧
      t.runEnded = true

/-! ### The host's tools -/

/-- R55: the assembler refuses ABSORB above 255 and RDH above 7 and never emits an illegal word. -/
def Obligations.AssemblerEmitsOnlyLegalWords : Prop :=
  (∀ (l : AsmLine) (ws : List Nat), assemble l = some ws → ∀ w ∈ ws, ∃ i, decodeCommand w = .ok i) ∧
  (∀ x, 255 < x → assemble (.absorb x) = none) ∧ (∀ x, 7 < x → assemble (.rdh x) = none)

/-- R56: the expansions of the pseudo-instructions, from the characters and the digits themselves: a string of ASCII characters
is one ABSORB of each character's code, in order, the empty string nothing; pairs of hexadecimal digits are one ABSORB of
`16 * hi + lo` each, the leftmost pair first. (What is refused, and small letters: PseudoInstructionsRefuseOtherOperands.) -/
def Obligations.PseudoInstructionsExpand : Prop :=
  (∀ cs : List Char, (∀ c ∈ cs, c.toNat ≤ 127) →
    asciiBytes cs = some (cs.map fun c => BitVec.ofNat 8 c.toNat) ∧
    assemble (.absorbs cs) = some (cs.map fun c => 0x2000 + c.toNat) ∧
    assemble (.hash cs) = some ([0x1000] ++ (cs.map fun c => 0x2000 + c.toNat) ++ [0x3000] ++
      [0x4000, 0x4100, 0x4200, 0x4300, 0x4400, 0x4500, 0x4600, 0x4700])) ∧
  assemble (.absorbs []) = some [] ∧
  (∀ ps : List ((Char × Nat) × (Char × Nat)), (∀ p ∈ ps, p.1 ∈ hexDigitValues ∧ p.2 ∈ hexDigitValues) →
    hexBytes (ps.flatMap fun p => [p.1.1, p.2.1]) = some (ps.map fun p => BitVec.ofNat 8 (16 * p.1.2 + p.2.2)) ∧
    assemble (.absorbx (ps.flatMap fun p => [p.1.1, p.2.1])) =
      some (ps.map fun p => 0x2000 + (16 * p.1.2 + p.2.2))) ∧
  assemble .rddigest = some [0x4000, 0x4100, 0x4200, 0x4300, 0x4400, 0x4500, 0x4600, 0x4700]

/-- The model's reading of R56 where it says only what an operand is (DEDUCED, log entry 6): a character above 127, an odd number
of digits and a character that is no digit are refused; a digit's letter may be capital or small, with the same bytes. -/
def Obligations.PseudoInstructionsRefuseOtherOperands : Prop :=
  (∀ cs : List Char, (∃ c ∈ cs, 127 < c.toNat) →
    asciiBytes cs = none ∧ assemble (.absorbs cs) = none ∧ assemble (.hash cs) = none) ∧
  (∀ ds : List Char, ds.length % 2 = 1 ∨ (∃ c ∈ ds, hexDigit c = none) →
    hexBytes ds = none ∧ assemble (.absorbx ds) = none) ∧
  (∀ (c : Char) (x : Nat), hexDigit c = some x ↔ ((c, x) ∈ hexDigitValues ∨
    (c, x) ∈ [('a', 10), ('b', 11), ('c', 12), ('d', 13), ('e', 14), ('f', 15)])) ∧
  (∀ ps : List ((Char × Nat) × (Char × Nat)),
    (∀ p ∈ ps, hexDigit p.1.1 = some p.1.2 ∧ hexDigit p.2.1 = some p.2.2) →
    hexBytes (ps.flatMap fun p => [p.1.1, p.2.1]) = some (ps.map fun p => BitVec.ofNat 8 (16 * p.1.2 + p.2.2)) ∧
    assemble (.absorbx (ps.flatMap fun p => [p.1.1, p.2.1])) =
      some (ps.map fun p => 0x2000 + (16 * p.1.2 + p.2.2)))
end

