-- ==== Sys2Proof/Laws/State.lean ====
section
/-! SUPPORT. What every update of State leaves in every field: one lemma per field per update, true by unfolding, so that no
proof unfolds a record update. Then the composite updates: respond, raise, hold, writeB, writeW, resetEvent. -/

namespace Sys2Proof.Machine

variable (s : State)

/-! `setH` -/
@[simp] theorem State.setH_h (x : Vector Word 8) : (s.setH x).h = x := rfl
@[simp] theorem State.setH_v (x : Vector Word 8) : (s.setH x).v = s.v := rfl
@[simp] theorem State.setH_w (x : Vector Word 8) : (s.setH x).w = s.w := rfl
@[simp] theorem State.setH_b (x : Vector Word 8) : (s.setH x).b = s.b := rfl
@[simp] theorem State.setH_n (x : Vector Word 8) : (s.setH x).n = s.n := rfl
@[simp] theorem State.setH_len (x : Vector Word 8) : (s.setH x).len = s.len := rfl
@[simp] theorem State.setH_seq (x : Vector Word 8) : (s.setH x).seq = s.seq := rfl
@[simp] theorem State.setH_ret (x : Vector Word 8) : (s.setH x).ret = s.ret := rfl
@[simp] theorem State.setH_port (x : Vector Word 8) : (s.setH x).port = s.port := rfl
@[simp] theorem State.setH_inputs (x : Vector Word 8) : (s.setH x).inputs = s.inputs := rfl
@[simp] theorem State.setH_responses (x : Vector Word 8) : (s.setH x).responses = s.responses := rfl
@[simp] theorem State.setH_resets (x : Vector Word 8) : (s.setH x).resets = s.resets := rfl

/-! `setV` -/
@[simp] theorem State.setV_h (x : Vector Word 8) : (s.setV x).h = s.h := rfl
@[simp] theorem State.setV_v (x : Vector Word 8) : (s.setV x).v = x := rfl
@[simp] theorem State.setV_w (x : Vector Word 8) : (s.setV x).w = s.w := rfl
@[simp] theorem State.setV_b (x : Vector Word 8) : (s.setV x).b = s.b := rfl
@[simp] theorem State.setV_n (x : Vector Word 8) : (s.setV x).n = s.n := rfl
@[simp] theorem State.setV_len (x : Vector Word 8) : (s.setV x).len = s.len := rfl
@[simp] theorem State.setV_seq (x : Vector Word 8) : (s.setV x).seq = s.seq := rfl
@[simp] theorem State.setV_ret (x : Vector Word 8) : (s.setV x).ret = s.ret := rfl
@[simp] theorem State.setV_port (x : Vector Word 8) : (s.setV x).port = s.port := rfl
@[simp] theorem State.setV_inputs (x : Vector Word 8) : (s.setV x).inputs = s.inputs := rfl
@[simp] theorem State.setV_responses (x : Vector Word 8) : (s.setV x).responses = s.responses := rfl
@[simp] theorem State.setV_resets (x : Vector Word 8) : (s.setV x).resets = s.resets := rfl

/-! `setW` -/
@[simp] theorem State.setW_h (x : Vector Word 64) : (s.setW x).h = s.h := rfl
@[simp] theorem State.setW_v (x : Vector Word 64) : (s.setW x).v = s.v := rfl
@[simp] theorem State.setW_w (x : Vector Word 64) : (s.setW x).w = x := rfl
@[simp] theorem State.setW_b (x : Vector Word 64) : (s.setW x).b = s.b := rfl
@[simp] theorem State.setW_n (x : Vector Word 64) : (s.setW x).n = s.n := rfl
@[simp] theorem State.setW_len (x : Vector Word 64) : (s.setW x).len = s.len := rfl
@[simp] theorem State.setW_seq (x : Vector Word 64) : (s.setW x).seq = s.seq := rfl
@[simp] theorem State.setW_ret (x : Vector Word 64) : (s.setW x).ret = s.ret := rfl
@[simp] theorem State.setW_port (x : Vector Word 64) : (s.setW x).port = s.port := rfl
@[simp] theorem State.setW_inputs (x : Vector Word 64) : (s.setW x).inputs = s.inputs := rfl
@[simp] theorem State.setW_responses (x : Vector Word 64) : (s.setW x).responses = s.responses := rfl
@[simp] theorem State.setW_resets (x : Vector Word 64) : (s.setW x).resets = s.resets := rfl

/-! `setB` -/
@[simp] theorem State.setB_h (x : Vector Byte 64) : (s.setB x).h = s.h := rfl
@[simp] theorem State.setB_v (x : Vector Byte 64) : (s.setB x).v = s.v := rfl
@[simp] theorem State.setB_w (x : Vector Byte 64) : (s.setB x).w = s.w := rfl
@[simp] theorem State.setB_b (x : Vector Byte 64) : (s.setB x).b = x := rfl
@[simp] theorem State.setB_n (x : Vector Byte 64) : (s.setB x).n = s.n := rfl
@[simp] theorem State.setB_len (x : Vector Byte 64) : (s.setB x).len = s.len := rfl
@[simp] theorem State.setB_seq (x : Vector Byte 64) : (s.setB x).seq = s.seq := rfl
@[simp] theorem State.setB_ret (x : Vector Byte 64) : (s.setB x).ret = s.ret := rfl
@[simp] theorem State.setB_port (x : Vector Byte 64) : (s.setB x).port = s.port := rfl
@[simp] theorem State.setB_inputs (x : Vector Byte 64) : (s.setB x).inputs = s.inputs := rfl
@[simp] theorem State.setB_responses (x : Vector Byte 64) : (s.setB x).responses = s.responses := rfl
@[simp] theorem State.setB_resets (x : Vector Byte 64) : (s.setB x).resets = s.resets := rfl

/-! `setN` -/
@[simp] theorem State.setN_h (x : BitVec 7) : (s.setN x).h = s.h := rfl
@[simp] theorem State.setN_v (x : BitVec 7) : (s.setN x).v = s.v := rfl
@[simp] theorem State.setN_w (x : BitVec 7) : (s.setN x).w = s.w := rfl
@[simp] theorem State.setN_b (x : BitVec 7) : (s.setN x).b = s.b := rfl
@[simp] theorem State.setN_n (x : BitVec 7) : (s.setN x).n = x := rfl
@[simp] theorem State.setN_len (x : BitVec 7) : (s.setN x).len = s.len := rfl
@[simp] theorem State.setN_seq (x : BitVec 7) : (s.setN x).seq = s.seq := rfl
@[simp] theorem State.setN_ret (x : BitVec 7) : (s.setN x).ret = s.ret := rfl
@[simp] theorem State.setN_port (x : BitVec 7) : (s.setN x).port = s.port := rfl
@[simp] theorem State.setN_inputs (x : BitVec 7) : (s.setN x).inputs = s.inputs := rfl
@[simp] theorem State.setN_responses (x : BitVec 7) : (s.setN x).responses = s.responses := rfl
@[simp] theorem State.setN_resets (x : BitVec 7) : (s.setN x).resets = s.resets := rfl

/-! `setLen` -/
@[simp] theorem State.setLen_h (x : BitVec 64) : (s.setLen x).h = s.h := rfl
@[simp] theorem State.setLen_v (x : BitVec 64) : (s.setLen x).v = s.v := rfl
@[simp] theorem State.setLen_w (x : BitVec 64) : (s.setLen x).w = s.w := rfl
@[simp] theorem State.setLen_b (x : BitVec 64) : (s.setLen x).b = s.b := rfl
@[simp] theorem State.setLen_n (x : BitVec 64) : (s.setLen x).n = s.n := rfl
@[simp] theorem State.setLen_len (x : BitVec 64) : (s.setLen x).len = x := rfl
@[simp] theorem State.setLen_seq (x : BitVec 64) : (s.setLen x).seq = s.seq := rfl
@[simp] theorem State.setLen_ret (x : BitVec 64) : (s.setLen x).ret = s.ret := rfl
@[simp] theorem State.setLen_port (x : BitVec 64) : (s.setLen x).port = s.port := rfl
@[simp] theorem State.setLen_inputs (x : BitVec 64) : (s.setLen x).inputs = s.inputs := rfl
@[simp] theorem State.setLen_responses (x : BitVec 64) : (s.setLen x).responses = s.responses := rfl
@[simp] theorem State.setLen_resets (x : BitVec 64) : (s.setLen x).resets = s.resets := rfl

/-! `setSeq` -/
@[simp] theorem State.setSeq_h (x : BitVec 8) : (s.setSeq x).h = s.h := rfl
@[simp] theorem State.setSeq_v (x : BitVec 8) : (s.setSeq x).v = s.v := rfl
@[simp] theorem State.setSeq_w (x : BitVec 8) : (s.setSeq x).w = s.w := rfl
@[simp] theorem State.setSeq_b (x : BitVec 8) : (s.setSeq x).b = s.b := rfl
@[simp] theorem State.setSeq_n (x : BitVec 8) : (s.setSeq x).n = s.n := rfl
@[simp] theorem State.setSeq_len (x : BitVec 8) : (s.setSeq x).len = s.len := rfl
@[simp] theorem State.setSeq_seq (x : BitVec 8) : (s.setSeq x).seq = x := rfl
@[simp] theorem State.setSeq_ret (x : BitVec 8) : (s.setSeq x).ret = s.ret := rfl
@[simp] theorem State.setSeq_port (x : BitVec 8) : (s.setSeq x).port = s.port := rfl
@[simp] theorem State.setSeq_inputs (x : BitVec 8) : (s.setSeq x).inputs = s.inputs := rfl
@[simp] theorem State.setSeq_responses (x : BitVec 8) : (s.setSeq x).responses = s.responses := rfl
@[simp] theorem State.setSeq_resets (x : BitVec 8) : (s.setSeq x).resets = s.resets := rfl

/-! `setRet` -/
@[simp] theorem State.setRet_h (x : Ret) : (s.setRet x).h = s.h := rfl
@[simp] theorem State.setRet_v (x : Ret) : (s.setRet x).v = s.v := rfl
@[simp] theorem State.setRet_w (x : Ret) : (s.setRet x).w = s.w := rfl
@[simp] theorem State.setRet_b (x : Ret) : (s.setRet x).b = s.b := rfl
@[simp] theorem State.setRet_n (x : Ret) : (s.setRet x).n = s.n := rfl
@[simp] theorem State.setRet_len (x : Ret) : (s.setRet x).len = s.len := rfl
@[simp] theorem State.setRet_seq (x : Ret) : (s.setRet x).seq = s.seq := rfl
@[simp] theorem State.setRet_ret (x : Ret) : (s.setRet x).ret = x := rfl
@[simp] theorem State.setRet_port (x : Ret) : (s.setRet x).port = s.port := rfl
@[simp] theorem State.setRet_inputs (x : Ret) : (s.setRet x).inputs = s.inputs := rfl
@[simp] theorem State.setRet_responses (x : Ret) : (s.setRet x).responses = s.responses := rfl
@[simp] theorem State.setRet_resets (x : Ret) : (s.setRet x).resets = s.resets := rfl

/-! `setPort` -/
@[simp] theorem State.setPort_h (x : Option Nat) : (s.setPort x).h = s.h := rfl
@[simp] theorem State.setPort_v (x : Option Nat) : (s.setPort x).v = s.v := rfl
@[simp] theorem State.setPort_w (x : Option Nat) : (s.setPort x).w = s.w := rfl
@[simp] theorem State.setPort_b (x : Option Nat) : (s.setPort x).b = s.b := rfl
@[simp] theorem State.setPort_n (x : Option Nat) : (s.setPort x).n = s.n := rfl
@[simp] theorem State.setPort_len (x : Option Nat) : (s.setPort x).len = s.len := rfl
@[simp] theorem State.setPort_seq (x : Option Nat) : (s.setPort x).seq = s.seq := rfl
@[simp] theorem State.setPort_ret (x : Option Nat) : (s.setPort x).ret = s.ret := rfl
@[simp] theorem State.setPort_port (x : Option Nat) : (s.setPort x).port = x := rfl
@[simp] theorem State.setPort_inputs (x : Option Nat) : (s.setPort x).inputs = s.inputs := rfl
@[simp] theorem State.setPort_responses (x : Option Nat) : (s.setPort x).responses = s.responses := rfl
@[simp] theorem State.setPort_resets (x : Option Nat) : (s.setPort x).resets = s.resets := rfl

/-! `setInputs` -/
@[simp] theorem State.setInputs_h (x : List HostEvent) : (s.setInputs x).h = s.h := rfl
@[simp] theorem State.setInputs_v (x : List HostEvent) : (s.setInputs x).v = s.v := rfl
@[simp] theorem State.setInputs_w (x : List HostEvent) : (s.setInputs x).w = s.w := rfl
@[simp] theorem State.setInputs_b (x : List HostEvent) : (s.setInputs x).b = s.b := rfl
@[simp] theorem State.setInputs_n (x : List HostEvent) : (s.setInputs x).n = s.n := rfl
@[simp] theorem State.setInputs_len (x : List HostEvent) : (s.setInputs x).len = s.len := rfl
@[simp] theorem State.setInputs_seq (x : List HostEvent) : (s.setInputs x).seq = s.seq := rfl
@[simp] theorem State.setInputs_ret (x : List HostEvent) : (s.setInputs x).ret = s.ret := rfl
@[simp] theorem State.setInputs_port (x : List HostEvent) : (s.setInputs x).port = s.port := rfl
@[simp] theorem State.setInputs_inputs (x : List HostEvent) : (s.setInputs x).inputs = x := rfl
@[simp] theorem State.setInputs_responses (x : List HostEvent) : (s.setInputs x).responses = s.responses := rfl
@[simp] theorem State.setInputs_resets (x : List HostEvent) : (s.setInputs x).resets = s.resets := rfl

/-! `log` -/
@[simp] theorem State.log_h (x : Response) : (s.log x).h = s.h := rfl
@[simp] theorem State.log_v (x : Response) : (s.log x).v = s.v := rfl
@[simp] theorem State.log_w (x : Response) : (s.log x).w = s.w := rfl
@[simp] theorem State.log_b (x : Response) : (s.log x).b = s.b := rfl
@[simp] theorem State.log_n (x : Response) : (s.log x).n = s.n := rfl
@[simp] theorem State.log_len (x : Response) : (s.log x).len = s.len := rfl
@[simp] theorem State.log_seq (x : Response) : (s.log x).seq = s.seq := rfl
@[simp] theorem State.log_ret (x : Response) : (s.log x).ret = s.ret := rfl
@[simp] theorem State.log_port (x : Response) : (s.log x).port = s.port := rfl
@[simp] theorem State.log_inputs (x : Response) : (s.log x).inputs = s.inputs := rfl
@[simp] theorem State.log_responses (x : Response) : (s.log x).responses = s.responses ++ [x] := rfl
@[simp] theorem State.log_resets (x : Response) : (s.log x).resets = s.resets := rfl

/-! `respond` -/
@[simp] theorem State.respond_h (c : Code) (d : Word) : (s.respond c d).h = s.h := rfl
@[simp] theorem State.respond_v (c : Code) (d : Word) : (s.respond c d).v = s.v := rfl
@[simp] theorem State.respond_w (c : Code) (d : Word) : (s.respond c d).w = s.w := rfl
@[simp] theorem State.respond_b (c : Code) (d : Word) : (s.respond c d).b = s.b := rfl
@[simp] theorem State.respond_n (c : Code) (d : Word) : (s.respond c d).n = s.n := rfl
@[simp] theorem State.respond_len (c : Code) (d : Word) : (s.respond c d).len = s.len := rfl
@[simp] theorem State.respond_seq (c : Code) (d : Word) : (s.respond c d).seq = s.seq := rfl
@[simp] theorem State.respond_ret (c : Code) (d : Word) : (s.respond c d).ret = s.ret := rfl
@[simp] theorem State.respond_port (c : Code) (d : Word) : (s.respond c d).port = none := rfl
@[simp] theorem State.respond_inputs (c : Code) (d : Word) : (s.respond c d).inputs = s.inputs := rfl
@[simp] theorem State.respond_responses (c : Code) (d : Word) : (s.respond c d).responses = s.responses ++ [⟨c, d⟩] := rfl
@[simp] theorem State.respond_resets (c : Code) (d : Word) : (s.respond c d).resets = s.resets := rfl

/-! `hold` -/
@[simp] theorem State.hold_h (c : CodeWord) : (s.hold c).h = s.h := rfl
@[simp] theorem State.hold_v (c : CodeWord) : (s.hold c).v = s.v := rfl
@[simp] theorem State.hold_w (c : CodeWord) : (s.hold c).w = s.w := rfl
@[simp] theorem State.hold_b (c : CodeWord) : (s.hold c).b = s.b := rfl
@[simp] theorem State.hold_n (c : CodeWord) : (s.hold c).n = s.n := rfl
@[simp] theorem State.hold_len (c : CodeWord) : (s.hold c).len = s.len := rfl
@[simp] theorem State.hold_seq (c : CodeWord) : (s.hold c).seq = s.seq := rfl
@[simp] theorem State.hold_ret (c : CodeWord) : (s.hold c).ret = s.ret := rfl
@[simp] theorem State.hold_port (c : CodeWord) : (s.hold c).port = some c.toNat := rfl
@[simp] theorem State.hold_inputs (c : CodeWord) : (s.hold c).inputs = s.inputs := rfl
@[simp] theorem State.hold_responses (c : CodeWord) : (s.hold c).responses = s.responses := rfl
@[simp] theorem State.hold_resets (c : CodeWord) : (s.hold c).resets = s.resets := rfl

/-! `writeB` -/
@[simp] theorem State.writeB_h (j : BitVec 6) (x : Byte) : (s.writeB j x).h = s.h := rfl
@[simp] theorem State.writeB_v (j : BitVec 6) (x : Byte) : (s.writeB j x).v = s.v := rfl
@[simp] theorem State.writeB_w (j : BitVec 6) (x : Byte) : (s.writeB j x).w = s.w := rfl
@[simp] theorem State.writeB_b (j : BitVec 6) (x : Byte) : (s.writeB j x).b = s.b.set j.toNat x j.isLt := rfl
@[simp] theorem State.writeB_n (j : BitVec 6) (x : Byte) : (s.writeB j x).n = s.n := rfl
@[simp] theorem State.writeB_len (j : BitVec 6) (x : Byte) : (s.writeB j x).len = s.len := rfl
@[simp] theorem State.writeB_seq (j : BitVec 6) (x : Byte) : (s.writeB j x).seq = s.seq := rfl
@[simp] theorem State.writeB_ret (j : BitVec 6) (x : Byte) : (s.writeB j x).ret = s.ret := rfl
@[simp] theorem State.writeB_port (j : BitVec 6) (x : Byte) : (s.writeB j x).port = s.port := rfl
@[simp] theorem State.writeB_inputs (j : BitVec 6) (x : Byte) : (s.writeB j x).inputs = s.inputs := rfl
@[simp] theorem State.writeB_responses (j : BitVec 6) (x : Byte) : (s.writeB j x).responses = s.responses := rfl
@[simp] theorem State.writeB_resets (j : BitVec 6) (x : Byte) : (s.writeB j x).resets = s.resets := rfl

/-! `writeW` -/
@[simp] theorem State.writeW_h (t : BitVec 6) (x : Word) : (s.writeW t x).h = s.h := rfl
@[simp] theorem State.writeW_v (t : BitVec 6) (x : Word) : (s.writeW t x).v = s.v := rfl
@[simp] theorem State.writeW_w (t : BitVec 6) (x : Word) : (s.writeW t x).w = s.w.set t.toNat x t.isLt := rfl
@[simp] theorem State.writeW_b (t : BitVec 6) (x : Word) : (s.writeW t x).b = s.b := rfl
@[simp] theorem State.writeW_n (t : BitVec 6) (x : Word) : (s.writeW t x).n = s.n := rfl
@[simp] theorem State.writeW_len (t : BitVec 6) (x : Word) : (s.writeW t x).len = s.len := rfl
@[simp] theorem State.writeW_seq (t : BitVec 6) (x : Word) : (s.writeW t x).seq = s.seq := rfl
@[simp] theorem State.writeW_ret (t : BitVec 6) (x : Word) : (s.writeW t x).ret = s.ret := rfl
@[simp] theorem State.writeW_port (t : BitVec 6) (x : Word) : (s.writeW t x).port = s.port := rfl
@[simp] theorem State.writeW_inputs (t : BitVec 6) (x : Word) : (s.writeW t x).inputs = s.inputs := rfl
@[simp] theorem State.writeW_responses (t : BitVec 6) (x : Word) : (s.writeW t x).responses = s.responses := rfl
@[simp] theorem State.writeW_resets (t : BitVec 6) (x : Word) : (s.writeW t x).resets = s.resets := rfl

/-! `raise` -/
@[simp] theorem State.raise_h (x : Rejection) : (s.raise x).h = s.h := by cases x <;> rfl
@[simp] theorem State.raise_v (x : Rejection) : (s.raise x).v = s.v := by cases x <;> rfl
@[simp] theorem State.raise_w (x : Rejection) : (s.raise x).w = s.w := by cases x <;> rfl
@[simp] theorem State.raise_b (x : Rejection) : (s.raise x).b = s.b := by cases x <;> rfl
@[simp] theorem State.raise_n (x : Rejection) : (s.raise x).n = s.n := by cases x <;> rfl
@[simp] theorem State.raise_len (x : Rejection) : (s.raise x).len = s.len := by cases x <;> rfl
@[simp] theorem State.raise_ret (x : Rejection) : (s.raise x).ret = s.ret := by cases x <;> rfl
@[simp] theorem State.raise_inputs (x : Rejection) : (s.raise x).inputs = s.inputs := by cases x <;> rfl
@[simp] theorem State.raise_resets (x : Rejection) : (s.raise x).resets = s.resets := by cases x <;> rfl
@[simp] theorem State.raise_port (x : Rejection) : (s.raise x).port = none := by cases x <;> rfl
@[simp] theorem State.raise_responses (x : Rejection) : (s.raise x).responses = s.responses ++ [⟨x.code, 0#32⟩] := by
  cases x <;> rfl
@[simp] theorem State.raise_seq (x : Rejection) : (s.raise x).seq = if x = .tooLarge then seqErr else s.seq := by
  cases x <;> rfl

/-! `resetEvent` -/
@[simp] theorem State.resetEvent_h : s.resetEvent.h = Sys2Proof.Config.resetH (s.resets + 1) := rfl
@[simp] theorem State.resetEvent_v : s.resetEvent.v = Sys2Proof.Config.resetV (s.resets + 1) := rfl
@[simp] theorem State.resetEvent_w : s.resetEvent.w = Sys2Proof.Config.resetW (s.resets + 1) := rfl
@[simp] theorem State.resetEvent_b : s.resetEvent.b = Sys2Proof.Config.resetB (s.resets + 1) := rfl
@[simp] theorem State.resetEvent_n : s.resetEvent.n = 0#7 := rfl
@[simp] theorem State.resetEvent_len : s.resetEvent.len = 0#64 := rfl
@[simp] theorem State.resetEvent_seq : s.resetEvent.seq = 0x00#8 := rfl
@[simp] theorem State.resetEvent_ret : s.resetEvent.ret = .accept := rfl
@[simp] theorem State.resetEvent_port : s.resetEvent.port = none := rfl
@[simp] theorem State.resetEvent_inputs : s.resetEvent.inputs = s.inputs := rfl
@[simp] theorem State.resetEvent_responses : s.resetEvent.responses = s.responses := rfl
@[simp] theorem State.resetEvent_resets : s.resetEvent.resets = s.resets + 1 := rfl

/-! The status functions look at SEQ and N only (R19) -/
theorem State.isRest_congr {s t : State} (h : s.seq = t.seq) : s.isRest = t.isRest := by simp [State.isRest, h]
theorem State.isReserved_congr {s t : State} (h : s.seq = t.seq) : s.isReserved = t.isReserved := by
  simp [State.isReserved, h]
theorem State.isBusy_congr {s t : State} (h : s.seq = t.seq) : s.isBusy = t.isBusy := by
  simp [State.isBusy, State.isRest, State.isReserved, h]
theorem State.statusWord_congr {s t : State} (h : s.seq = t.seq) (hn : s.n = t.n) : s.statusWord = t.statusWord := by
  simp [State.statusWord, State.errFlag, State.valid, State.accepting, State.isRest, h, hn]

/-! Reading after writing -/
theorem State.bAt_writeB_same (j : BitVec 6) (x : Byte) : (s.writeB j x).bAt j = x := by
  simp [State.bAt]
theorem State.bAt_writeB_other (j k : BitVec 6) (x : Byte) (h : j ≠ k) : (s.writeB j x).bAt k = s.bAt k := by
  have : j.toNat ≠ k.toNat := fun e => h (BitVec.eq_of_toNat_eq e)
  simp [State.bAt, this]
theorem State.wAt_writeW_same (t : BitVec 6) (x : Word) : (s.writeW t x).wAt t = x := by
  simp [State.wAt]
theorem State.wAt_writeW_other (t k : BitVec 6) (x : Word) (h : t ≠ k) : (s.writeW t x).wAt k = s.wAt k := by
  have : t.toNat ≠ k.toNat := fun e => h (BitVec.eq_of_toNat_eq e)
  simp [State.wAt, this]

end Sys2Proof.Machine
end

