-- ==== Sys2Proof/Laws/Ops.lean ====
section
/-! SUPPORT. One lemma per shared operation that says everything it can do when it answers a next state; proofs about the
instructions cite these and do not unfold the operations. -/

namespace Sys2Proof.Machine

/-- A byte push that answers: B has the index N, and either the buffer fills and is parsed, or the caller's code follows (R80). -/
theorem push_next {s t : State} {x : Byte} {r : Ret} {c : BitVec 8} (h : s.push x r c = .next t) :
    s.n.toNat < 64 ∧
    ((s.n = 63#7 ∧ t = ((((s.writeB (s.n.setWidth 6) x).setN (s.n + 1#7)).setRet r).setSeq seqParse)) ∨
     (s.n ≠ 63#7 ∧ t = (((s.writeB (s.n.setWidth 6) x).setN (s.n + 1#7)).setSeq c))) := by
  unfold State.push at h
  split at h
  · cases h
  · refine ⟨by omega, ?_⟩
    dsimp only at h
    split at h <;> cases h
    · exact .inl ⟨‹_›, rfl⟩
    · exact .inr ⟨‹_›, rfl⟩

/-- A push with room in B always answers (R80). -/
theorem push_of_room (s : State) (x : Byte) (r : Ret) (c : BitVec 8) (h : s.n.toNat < 64) : ∃ t, s.push x r c = .next t := by
  unfold State.push
  rw [if_neg (by omega)]
  dsimp only
  split <;> exact ⟨_, rfl⟩

/-- The byte written by a push with room, as an update at the index N. -/
theorem writeB_at_n (s : State) (x : Byte) (h : s.n.toNat < 64) :
    s.writeB (s.n.setWidth 6) x = { s with b := s.b.setIfInBounds s.n.toNat x } := by
  have e : s.n.toNat % 64 = s.n.toNat := Nat.mod_eq_of_lt h
  simp [State.writeB, State.setB, Vector.set, Vector.setIfInBounds, Array.setIfInBounds, e, h]

/-- A push that does not fill the buffer, as one record update (R80). -/
theorem push_of_le_62 (s : State) (x : Byte) (r : Ret) (c : BitVec 8) (h : s.n.toNat ≤ 62) :
    s.push x r c = .next { s with b := s.b.setIfInBounds s.n.toNat x, n := s.n + 1#7, seq := c } := by
  have h63 : s.n ≠ 63#7 := by rintro e; simp [e] at h
  simp only [State.push, h63, if_false, show ¬ 64 ≤ s.n.toNat by omega, writeB_at_n s x (by omega)]
  rfl

/-- The push that fills the buffer, as one record update (R80). -/
theorem push_of_63 (s : State) (x : Byte) (r : Ret) (c : BitVec 8) (h : s.n = 63#7) :
    s.push x r c = .next { s with b := s.b.setIfInBounds 63 x, n := 64#7, ret := r, seq := seqParse } := by
  have hn : s.n.toNat = 63 := by rw [h]; rfl
  unfold State.push
  rw [if_neg (by omega)]
  dsimp only
  rw [if_pos h, writeB_at_n s x (by omega), hn, h]
  rfl

/-- A command that is not decided before test 4: held at a busy code, decided at a rest code (R110). -/
theorem whenAtRest_next {s t : State} {c : CodeWord} {d : Result} (h : whenAtRest c d s = .next t) :
    s.isReserved = false ∧ ((s.isBusy = true ∧ t = s.hold c) ∨ (s.isBusy = false ∧ d = .next t)) := by
  unfold whenAtRest at h
  split at h
  · cases h
  · rename_i hr
    refine ⟨by simpa using hr, ?_⟩
    split at h
    · cases h; exact .inl ⟨‹_›, rfl⟩
    · rename_i hb; exact .inr ⟨by simpa using hb, h⟩

/-- A command that needs a phase: held, rejected for the session's end, performed, or rejected for the phase (R110). -/
theorem whenInPhase_next {s t : State} {c : CodeWord} {p : BitVec 8} {d : Result} (h : whenInPhase c p d s = .next t) :
    s.isReserved = false ∧
    ((s.isBusy = true ∧ t = s.hold c) ∨
     (s.isBusy = false ∧ s.seq = seqErr ∧ t = s.raise .tooLarge) ∨
     (s.isBusy = false ∧ s.seq ≠ seqErr ∧ s.seq = p ∧ d = .next t) ∨
     (s.isBusy = false ∧ s.seq ≠ seqErr ∧ s.seq ≠ p ∧ t = s.raise .badPhase)) := by
  obtain ⟨hr, ⟨hb, ht⟩ | ⟨hb, hd⟩⟩ := whenAtRest_next h
  · exact ⟨hr, .inl ⟨hb, ht⟩⟩
  · refine ⟨hr, .inr ?_⟩
    split at hd
    · cases hd; exact .inl ⟨hb, ‹_›, rfl⟩
    · split at hd
      · exact .inr (.inl ⟨hb, ‹_›, ‹_›, hd⟩)
      · cases hd; exact .inr (.inr ⟨hb, ‹_›, ‹_›, rfl⟩)

/-- EXPAND answers only for an index of 16 or more, and writes that one word and SEQ (R95). -/
theorem expand_next {s u : State} {t : BitVec 6} (h : s.expand t = .next u) :
    16 ≤ t.toNat ∧
    u = (s.writeW t (expandWord s.w t)).setSeq (if t = 63#6 then seqLoadv else seqExpand (t + 1#6)) := by
  unfold State.expand at h
  split at h
  · cases h
  · cases h; exact ⟨by omega, rfl⟩

/-- A rest code is a defined code, so it is neither busy nor reserved (R51). -/
theorem isRest_iff (s : State) :
    s.isRest = true ↔ s.seq = seqIdle ∨ s.seq = seqAccept ∨ s.seq = seqDone ∨ s.seq = seqErr := by
  have key : ∀ c : BitVec 8,
      decide (c.toNat ≤ 3) = true ↔ c = seqIdle ∨ c = seqAccept ∨ c = seqDone ∨ c = seqErr := by decide
  exact key s.seq

theorem isReserved_of_isRest {s : State} (h : s.isRest = true) : s.isReserved = false := by
  rcases (isRest_iff s).mp h with e | e | e | e <;> rw [State.isReserved, e] <;> rfl

theorem isBusy_of_isRest {s : State} (h : s.isRest = true) : s.isBusy = false := by simp [State.isBusy, h]

/-- Three kinds of code, each state in exactly one (R51, R53). -/
theorem rest_or_busy_or_reserved (s : State) : s.isRest = true ∨ s.isBusy = true ∨ s.isReserved = true := by
  unfold State.isBusy
  cases s.isRest <;> cases s.isReserved <;> simp

/-- A code that decodes is not reserved (R53). -/
theorem isReserved_eq_false_iff (s : State) : s.isReserved = false ↔ ∃ i, decodeSeq s.seq = .ok i := by
  unfold State.isReserved
  cases h : decodeSeq s.seq <;> simp [Except.isOk, Except.toBool]

/-- Before every hold stands a phase: at a rest code test 3 lets the command through (R110). -/
theorem whenAtRest_of_isRest {s : State} (c : CodeWord) (d : Result) (h : s.isRest = true) : whenAtRest c d s = d := by
  simp [whenAtRest, isReserved_of_isRest h, isBusy_of_isRest h]

theorem whenAtRest_of_isBusy {s : State} (c : CodeWord) (d : Result) (h : s.isBusy = true) :
    whenAtRest c d s = .next (s.hold c) := by
  have hr : s.isReserved = false := by
    unfold State.isBusy at h
    simp only [Bool.and_eq_true, Bool.not_eq_true'] at h
    exact h.2
  simp [whenAtRest, hr, h]

end Sys2Proof.Machine
end

