-- ==== Sys2Proof/Laws/PerInstr.lean ====
section
/-! SUPPORT. Per instruction: the encoding of a well-formed instruction has its row's width and matches its row's mask
(30_encoding.md R47, R52; spec/opcode_table.json). -/

namespace Sys2Proof.Laws.RowMatch

/-- The encoding of the instruction matches the row of the opcode table it stands for. -/
def Statement (i : Instr) : Prop :=
  i.wellFormed = true → (encode i).nbits = i.row.nbits ∧ (encode i).toNat &&& i.row.mask = i.row.pat

theorem init : Statement .init := by unfold Statement; decide
theorem absorb (bb : Byte) : Statement (.absorb bb) := by unfold Statement; revert bb; decide
theorem final : Statement .final := by unfold Statement; decide
theorem rdh (i : BitVec 3) : Statement (.rdh i) := by unfold Statement; revert i; decide
theorem rdstat : Statement .rdstat := by unfold Statement; decide
theorem idle : Statement .idle := by unfold Statement; decide
theorem accept : Statement .accept := by unfold Statement; decide
theorem done : Statement .done := by unfold Statement; decide
theorem err : Statement .err := by unfold Statement; decide
theorem parse : Statement .parse := by unfold Statement; decide
theorem loadv : Statement .loadv := by unfold Statement; decide
theorem feedfwd : Statement .feedfwd := by unfold Statement; decide
theorem padOne : Statement .padOne := by unfold Statement; decide
theorem padZero : Statement .padZero := by unfold Statement; decide
theorem padLen (i : BitVec 3) : Statement (.padLen i) := by unfold Statement; revert i; decide
theorem expandLow (t : BitVec 6) : Statement (.expandLow t) := by unfold Statement; revert t; decide
theorem expandHigh (t : BitVec 6) : Statement (.expandHigh t) := by unfold Statement; revert t; decide
theorem round (t : BitVec 6) : Statement (.round t) := by unfold Statement; revert t; decide

end Sys2Proof.Laws.RowMatch
end

