-- ==== Sys2Proof/Laws/Step.lean ====
section
/-! SUPPORT. Everything one step can do, said once: reset, poll, a rejected word, a decided command or a micro-operation. -/

namespace Sys2Proof.Machine

/-- What the host's move before a step does: nothing, one `pass` used up, or a command put on the free port (R110). -/
theorem takeInput_cases (s : State) :
    s.takeInput = s ∨
    (∃ rest, s.inputs = .pass :: rest ∧ s.takeInput = s.setInputs rest) ∨
    (∃ w rest, s.inputs = .command w :: rest ∧ s.port = none ∧ s.takeInput = (s.setInputs rest).setPort (some w)) := by
  unfold State.takeInput
  split
  · exact .inr (.inl ⟨_, ‹_›, rfl⟩)
  · exact .inr (.inr ⟨_, _, ‹_›, ‹_›, rfl⟩)
  · exact .inl rfl

/-- The host's move changes only the port and the events to come. -/
theorem takeInput_seq (s : State) : s.takeInput.seq = s.seq := by
  rcases takeInput_cases s with h | ⟨_, _, h⟩ | ⟨_, _, _, _, h⟩ <;> rw [h] <;> rfl

/-- The engine's step is the meaning of the code in SEQ (R117). -/
theorem engineStep_next {s t : State} (h : engineStep s = .next t) : ∃ i, decodeSeq s.seq = .ok i ∧ exec i s = .next t := by
  unfold engineStep at h
  split at h
  · exact ⟨_, ‹_›, h⟩
  · cases h

/-- One step of host or engine: an illegal word is rejected, a command is decided, or the engine takes its step (R110, R117). -/
theorem advance_next {s t : State} (h : advance s = .next t) :
    s.isReserved = false ∧
    ((∃ w e, s.port = some w ∧ decodeCommand w = .error e ∧ t = s.raise .illegalCmd) ∨
     (∃ w i, s.port = some w ∧ decodeCommand w = .ok i ∧ s.decidesNow i = true ∧ exec i s = .next t) ∨
     (∃ i, decodeSeq s.seq = .ok i ∧ exec i s = .next t ∧
       (s.port = none ∨ ∃ w j, s.port = some w ∧ decodeCommand w = .ok j ∧ s.decidesNow j = false))) := by
  unfold advance at h
  split at h
  · cases h
  · rename_i hr
    refine ⟨by simpa using hr, ?_⟩
    split at h
    · obtain ⟨i, hi, hx⟩ := engineStep_next h
      exact .inr (.inr ⟨i, hi, hx, .inl ‹_›⟩)
    · split at h
      · cases h; exact .inl ⟨_, _, ‹_›, ‹_›, rfl⟩
      · split at h
        · exact .inr (.inl ⟨_, _, ‹_›, ‹_›, ‹_›, h⟩)
        · obtain ⟨i, hi, hx⟩ := engineStep_next h
          exact .inr (.inr ⟨i, hi, hx, .inr ⟨_, _, ‹_›, ‹_›, by simp_all⟩⟩)

/-- Everything one step can do (R10). -/
theorem step_next {s t : State} (h : step s = .next t) :
    (∃ rest, s.inputs = .reset :: rest ∧ t = (s.setInputs rest).resetEvent) ∨
    (∃ rest, s.inputs = .poll :: rest ∧ s.isReserved = false ∧ t = (s.setInputs rest).log ⟨.ok, s.statusWord⟩) ∨
    ((∀ rest, s.inputs ≠ .reset :: rest) ∧ (∀ rest, s.inputs ≠ .poll :: rest) ∧ advance s.takeInput = .next t) := by
  unfold step machineStep at h
  split at h
  · cases h; exact .inl ⟨_, ‹_›, rfl⟩
  · refine .inr (.inl ⟨_, ‹_›, ?_⟩)
    unfold pollStep at h
    split at h
    · cases h
    · rename_i hr
      cases h
      refine ⟨by simpa [State.isReserved] using hr, rfl⟩
  · exact .inr (.inr ⟨‹_›, ‹_›, h⟩)

/-- With no host event to come, a step is one step of host or engine. -/
theorem step_of_no_inputs {s : State} (h : s.inputs = []) : step s = advance s := by
  simp [step, machineStep, State.takeInput, h]

/-- A run of no step. -/
theorem run_zero (s : State) : Sys2Proof.core.run 0 s = .next s := rfl

/-- A run whose first step answers goes on from there. -/
theorem run_succ_of_next {s t : State} (k : Nat) (h : step s = .next t) :
    Sys2Proof.core.run (k + 1) s = Sys2Proof.core.run k t := by
  have h' : Sys2Proof.core.step s = .next t := h
  simp only [Host.Core.run, h']

/-- Runs compose. -/
theorem run_add {s t : State} (j k : Nat) (h : Sys2Proof.core.run j s = .next t) :
    Sys2Proof.core.run (j + k) s = Sys2Proof.core.run k t := by
  induction j generalizing s with
  | zero => cases h; rw [Nat.zero_add]
  | succ j ih =>
    cases hs : step s with
    | next u =>
      rw [run_succ_of_next j hs] at h
      rw [Nat.succ_add, run_succ_of_next (j + k) hs, ih h]
    | fault r =>
      have h' : Sys2Proof.core.step s = .fault r := hs
      simp only [Host.Core.run, h'] at h
      cases h
    | refused r =>
      have h' : Sys2Proof.core.step s = .refused r := hs
      simp only [Host.Core.run, h'] at h
      cases h

end Sys2Proof.Machine
end

