-- ==== Sys2Proof/Tests/Slice0.lean ====
section
/-! SUPPORT. The model's own tests. Expected values come from the spec: the encoding tables of 30_encoding.md, the worked
examples of the rules and the derived vectors of 95_test_vectors.md. Then one witness per statement with hypotheses. -/

namespace Sys2Proof.Tests

open Sys2Proof.Machine

/-- A small state: everything zero but SEQ, N, LEN and RET. -/
def st (seq : BitVec 8) (n : BitVec 7) (len : BitVec 64) (ret : Ret) : State where
  h := Vector.replicate 8 0#32
  v := Vector.replicate 8 0#32
  w := Vector.replicate 64 0#32
  b := Vector.replicate 64 0#8
  n := n
  len := len
  seq := seq
  ret := ret
  port := none
  inputs := []
  responses := []
  resets := 0

/-- The next state of a step, if there is one. -/
def nextOf (r : Host.Outcome State Fault Refusal) : Option State :=
  match r with
  | .next t => some t
  | .fault _ => none
  | .refused _ => none

/-- A reading of the next state. -/
def after {α : Type} (f : State → α) (r : Host.Outcome State Fault Refusal) : Option α := (nextOf r).map f

/-- The fault of a step, if it is one. -/
def faultOf (r : Host.Outcome State Fault Refusal) : Option Fault :=
  match r with
  | .next _ => none
  | .fault x => some x
  | .refused _ => none

/-! ### WellFormed refuses an ill-formed term, one per check -/

theorem test_wf_expandLow_below_16 : (Instr.expandLow 15#6).wellFormed = false := by decide
theorem test_wf_expandLow_above_31 : (Instr.expandLow 32#6).wellFormed = false := by decide
theorem test_wf_expandHigh_below_32 : (Instr.expandHigh 31#6).wellFormed = false := by decide

/-! ### Decoding: words written out bit by bit from R47 and R52 -/

theorem test_decode_init : decodeCommand 0b0001000000000000 = .ok .init := by decide
theorem test_decode_absorb : decodeCommand 0b0010000001100001 = .ok (.absorb 0x61#8) := by decide
theorem test_decode_final : decodeCommand 0b0011000000000000 = .ok .final := by decide
theorem test_decode_rdh : decodeCommand 0b0100011000000000 = .ok (.rdh 6#3) := by decide
theorem test_decode_rdstat : decodeCommand 0b0101000000000000 = .ok .rdstat := by decide
theorem test_decode_idle : decodeSeq 0b00000000#8 = .ok .idle := by decide
theorem test_decode_accept : decodeSeq 0b00000001#8 = .ok .accept := by decide
theorem test_decode_done : decodeSeq 0b00000010#8 = .ok .done := by decide
theorem test_decode_err : decodeSeq 0b00000011#8 = .ok .err := by decide
theorem test_decode_parse : decodeSeq 0b00000100#8 = .ok .parse := by decide
theorem test_decode_loadv : decodeSeq 0b00000101#8 = .ok .loadv := by decide
theorem test_decode_feedfwd : decodeSeq 0b00000110#8 = .ok .feedfwd := by decide
theorem test_decode_padOne : decodeSeq 0b00001000#8 = .ok .padOne := by decide
theorem test_decode_padZero : decodeSeq 0b00001001#8 = .ok .padZero := by decide
theorem test_decode_padLen : decodeSeq 0b00010101#8 = .ok (.padLen 5#3) := by decide
theorem test_decode_expandLow : decodeSeq 0b01010000#8 = .ok (.expandLow 16#6) := by decide
theorem test_decode_expandHigh : decodeSeq 0b01111111#8 = .ok (.expandHigh 63#6) := by decide
theorem test_decode_round : decodeSeq 0b10000101#8 = .ok (.round 5#6) := by decide

/-- 95_test_vectors.md section 9.1: the illegal words there, each by its reason. -/
theorem test_decode_illegal :
    decodeCommand 0x0000 = .error .reservedOp ∧ decodeCommand 0x1001 = .error .unusedFieldNotZero ∧
    decodeCommand 0x1100 = .error .unusedFieldNotZero ∧ decodeCommand 0x2161 = .error .unusedFieldNotZero ∧
    decodeCommand 0x3080 = .error .unusedFieldNotZero ∧ decodeCommand 0x4800 = .error .indexOutOfRange ∧
    decodeCommand 0x4001 = .error .unusedFieldNotZero ∧ decodeCommand 0x6000 = .error .reservedOp ∧
    decodeCommand 0xFFFF = .error .reservedOp ∧ decodeCommand 0x11000 = .error .bitAbove15 := by decide

/-- R53: the ends of the reserved ranges. -/
theorem test_decode_reserved :
    ∀ c ∈ [0x07#8, 0x0A#8, 0x0F#8, 0x18#8, 0x3F#8, 0x40#8, 0x4F#8, 0xC0#8, 0xFF#8],
      decodeSeq c = .error .reservedSeqCode := by decide

/-- The rows of one format do not overlap (R47, R52): no code matches two. -/
theorem test_rows_disjoint :
    List.Pairwise (fun x y : TableRow => x.nbits ≠ y.nbits ∨ (x.pat ^^^ y.pat) &&& (x.mask &&& y.mask) ≠ 0)
      ([Instr.init, .absorb 0, .final, .rdh 0, .rdstat, .idle, .accept, .done, .err, .parse, .loadv, .feedfwd, .padOne,
        .padZero, .padLen 0, .expandLow 16, .expandHigh 32, .round 0].map Instr.row) := by decide

/-! ### Primitives: 41_bitwise_primitives.md and 95_test_vectors.md section 3 -/

theorem test_rotr : rotr 0x12345678#32 7 = 0xF02468AC#32 := by decide
theorem test_shr : shr 0x12345678#32 3 = 0x02468ACF#32 := by decide
theorem test_bsig0 : bsig0 0x6A09E667#32 = 0xCE20B47E#32 := by decide
theorem test_bsig1 : bsig1 0x510E527F#32 = 0x3587272B#32 := by decide
theorem test_ssig0 : ssig0 0x12345678#32 = 0xE7FCE6EE#32 := by decide
theorem test_ssig1 : ssig1 0x12345678#32 = 0xA1F78649#32 := by decide
theorem test_ch : ch 0xF0F0F0F0#32 0xCCCCCCCC#32 0xAAAAAAAA#32 = 0xCACACACA#32 := by decide
theorem test_maj : maj 0xF0F0F0F0#32 0xCCCCCCCC#32 0xAAAAAAAA#32 = 0xE8E8E8E8#32 := by decide

/-! ### Commands: 95_test_vectors.md sections 9 and 10 -/

theorem test_init : after (fun t => (t.seq, t.hAt 7#3, t.responses)) (exec .init (st 0x00#8 0#7 0#64 .accept)) =
    some (0x01#8, 0x5BE0CD19#32, [⟨.ok, 0#32⟩]) := by decide

/-- P5 line 1: the last byte a message can have. -/
theorem test_absorb_last : after (fun t => (t.n, t.len, t.bAt 62#6, t.seq))
    (exec (.absorb 0xAA#8) (st 0x01#8 62#7 0xFFFFFFFFFFFFFFF0#64 .accept)) =
    some (63#7, 0xFFFFFFFFFFFFFFF8#64, 0xAA#8, 0x01#8) := by decide

/-- P5 line 3: the rejected byte. -/
theorem test_absorb_too_large : after (fun t => (t.seq, t.n, t.bAt 63#6, t.responses))
    (exec (.absorb 0xBB#8) (st 0x01#8 63#7 0xFFFFFFFFFFFFFFF8#64 .accept)) =
    some (0x03#8, 63#7, 0x00#8, [⟨.tooLarge, 0#32⟩]) := by decide

theorem test_final : after (fun t => (t.seq, t.responses)) (exec .final (st 0x01#8 2#7 16#64 .accept)) =
    some (0x08#8, [⟨.ok, 0#32⟩]) := by decide

theorem test_final_done : after (fun t => (t.seq, t.responses)) (exec .final (st 0x02#8 0#7 0#64 .done)) =
    some (0x02#8, [⟨.badPhase, 0#32⟩]) := by decide

/-- The digest of "abc" in H: RDH 7 reads its last word. -/
theorem test_rdh : after (fun t => t.responses) (exec (.rdh 7#3) { st 0x02#8 0#7 24#64 .done with
      h := #v[0xBA7816BF#32, 0x8F01CFEA#32, 0x414140DE#32, 0x5DAE2223#32, 0xB00361A3#32, 0x96177A9C#32, 0xB410FF61#32, 0xF20015AD#32] }) =
    some [⟨.ok, 0xF20015AD#32⟩] := by decide

/-- 9.3: STATUS in ERR with 63 bytes, and its 34-bit response. -/
theorem test_rdstat : after (fun t => t.responses.map Response.bits) (exec .rdstat (st 0x03#8 63#7 0#64 .accept)) =
    some [0x0003F0309#34] := by decide

theorem test_status_busy : (st 0x04#8 64#7 0#64 .accept).statusWord = 0x00400400#32 := by decide

/-- P2 line 14: an illegal word in DONE changes nothing. -/
theorem test_illegal : after (fun t => (t.seq, t.port, t.responses)) (step { st 0x02#8 0#7 0#64 .done with port := some 0x0000 }) =
    some (0x02#8, none, [⟨.illegalCmd, 0#32⟩]) := by decide

/-- P4 line 68: a command presented at ROUND(10) is held while the engine takes its step. -/
theorem test_hold : after (fun t => (t.seq, t.port, t.responses))
    (step { st 0x8A#8 0#7 512#64 .accept with inputs := [.command 0x4000] }) = some (0x8B#8, some 0x4000, []) := by decide

/-- 95_test_vectors.md section 11: reset at ROUND(5) with RDH 0 held. -/
theorem test_reset_event : after (fun t => (t.seq, t.n, t.len, t.port, t.responses))
    (step { st 0x85#8 0#7 24#64 .done with port := some 0x4000, inputs := [.reset] }) =
    some (0x00#8, 0#7, 0#64, none, []) := by decide

/-- A poll is answered while RDH 0 is held (P4 line 67, at ROUND(10)). -/
theorem test_poll : after (fun t => (t.seq, t.port, t.responses))
    (step { st 0x8A#8 0#7 512#64 .accept with port := some 0x4000, inputs := [.poll] }) =
    some (0x8A#8, some 0x4000, [⟨.ok, 0x00008A00#32⟩]) := by decide

/-! ### Micro-operations: the examples of their rules -/

theorem test_padOne : after (fun t => (t.bAt 3#6, t.n, t.seq)) (exec .padOne (st 0x08#8 3#7 24#64 .accept)) =
    some (0x80#8, 4#7, 0x09#8) := by decide
theorem test_padOne_fills : after (fun t => (t.bAt 63#6, t.n, t.seq, t.ret)) (exec .padOne (st 0x08#8 63#7 504#64 .accept)) =
    some (0x80#8, 64#7, 0x04#8, .padZero) := by decide
theorem test_padZero_moves_on : after (fun t => (t.n, t.seq)) (exec .padZero (st 0x09#8 56#7 24#64 .accept)) =
    some (56#7, 0x10#8) := by decide
theorem test_padZero_fills : after (fun t => (t.n, t.seq, t.ret)) (exec .padZero (st 0x09#8 63#7 448#64 .accept)) =
    some (64#7, 0x04#8, .padZero) := by decide
theorem test_padLen_first : after (fun t => (t.bAt 56#6, t.seq)) (exec (.padLen 0#3) (st 0x10#8 56#7 0xFFFFFFFFFFFFFFF8#64 .padZero)) =
    some (0xFF#8, 0x11#8) := by decide
theorem test_padLen_last : after (fun t => (t.bAt 63#6, t.n, t.seq, t.ret)) (exec (.padLen 7#3) (st 0x17#8 63#7 24#64 .accept)) =
    some (0x18#8, 64#7, 0x04#8, .done) := by decide

/-- R84's byte-order check: bytes 61 62 63 80 parse to 61626380. -/
theorem test_parse : after (fun t => (t.wAt 0#6, t.n, t.seq)) (exec .parse { st 0x04#8 64#7 24#64 .done with
      b := (((((st 0x04#8 0#7 0#64 .done).writeB 0#6 0x61#8).writeB 1#6 0x62#8).writeB 2#6 0x63#8).writeB 3#6 0x80#8).b }) =
    some (0x61626380#32, 0#7, 0x50#8) := by decide

/-- R95's example: `W[17] = 000F0000` from `W[15] = 00000018`. -/
theorem test_expandLow : after (fun t => (t.wAt 17#6, t.seq))
    (exec (.expandLow 17#6) ((st 0x51#8 0#7 24#64 .done).writeW 15#6 0x00000018#32)) = some (0x000F0000#32, 0x52#8) := by decide

/-- 95_test_vectors.md section 5, the block of "abc": `W[63]` from `W[61]`, `W[56]`, `W[48]` and `W[47]`; then LOADV. -/
theorem test_expandHigh : after (fun t => (t.wAt 63#6, t.seq))
    (exec (.expandHigh 63#6) (((((st 0x7F#8 0#7 24#64 .done).writeW 61#6 0x668B2FF8#32).writeW 56#6 0xEF57B9CD#32).writeW 48#6
      0xFB3E89CB#32).writeW 47#6 0x065C43DA#32)) = some (0x12B1EDEB#32, 0x05#8) := by decide

theorem test_loadv : after (fun t => (t.vAt 7#3, t.seq)) (exec .loadv { st 0x05#8 0#7 24#64 .done with h := ivRom }) =
    some (0x5BE0CD19#32, 0x80#8) := by decide

/-- R101's example, round 0 of the block of "abc". -/
theorem test_round : after (fun t => (t.vAt 0#3, t.vAt 4#3, t.vAt 7#3, t.seq))
    (exec (.round 0#6) { (st 0x80#8 0#7 24#64 .done).writeW 0#6 0x61626380#32 with v := ivRom }) =
    some (0x5D6AEBCD#32, 0xFA2A4622#32, 0x1F83D9AB#32, 0x81#8) := by decide

/-- Section 6, round 63 of the block of "abc": uses `K[63]` and `W[63]`, then FEEDFWD. -/
theorem test_round_last : after (fun t => (t.vAt 0#3, t.vAt 4#3, t.seq))
    (exec (.round 63#6) { (st 0xBF#8 0#7 24#64 .done).writeW 63#6 0x12B1EDEB#32 with
      v := #v[0xD39A2165#32, 0x04D24D6C#32, 0xB85E2CE9#32, 0xB6AE8FFF#32, 0xFB121210#32, 0x948D25B6#32, 0x961F4894#32, 0xB21BAD3D#32] }) =
    some (0x506E3058#32, 0x5EF50F24#32, 0x06#8) := by decide

/-- R102's example: words 0 and 1 of the digest of "abc", the second addition wrapping. -/
theorem test_feedfwd : after (fun t => (t.hAt 0#3, t.hAt 1#3, t.seq)) (exec .feedfwd { st 0x06#8 0#7 24#64 .done with
      h := ivRom
      v := #v[0x506E3058#32, 0xD39A2165#32, 0x04D24D6C#32, 0xB85E2CE9#32, 0x5EF50F24#32, 0xFB121210#32, 0x948D25B6#32, 0x961F4894#32] }) =
    some (0xBA7816BF#32, 0x8F01CFEA#32, 0x02#8) := by decide

theorem test_idle : after (fun t => t.seq) (step (st 0x00#8 0#7 0#64 .accept)) = some 0x00#8 := by decide
theorem test_accept : after (fun t => (t.seq, t.n)) (step (st 0x01#8 5#7 40#64 .accept)) = some (0x01#8, 5#7) := by decide
theorem test_done : after (fun t => t.seq) (step (st 0x02#8 0#7 0#64 .done)) = some 0x02#8 := by decide
theorem test_err : after (fun t => t.seq) (step (st 0x03#8 63#7 0xFFFFFFFFFFFFFFF8#64 .accept)) = some 0x03#8 := by decide

/-- The three faults, each in a state no run reaches. -/
theorem test_faults :
    faultOf (step (st 0x07#8 0#7 0#64 .accept)) = some .reservedSeq ∧
    faultOf (exec .padOne (st 0x08#8 64#7 0#64 .accept)) = some .bufferIndex ∧
    faultOf (exec (.expandLow 15#6) (st 0x4F#8 0#7 0#64 .accept)) = some .scheduleIndex := by decide

/-- Each row of the opcode table, on its match word, runs as the first instruction after reset. -/
theorem test_rows_run_from_reset :
    ∀ x ∈ [(16, 0x1000), (16, 0x2000), (16, 0x3000), (16, 0x4000), (16, 0x5000), (8, 0x00), (8, 0x01), (8, 0x02), (8, 0x03),
      (8, 0x04), (8, 0x05), (8, 0x06), (8, 0x08), (8, 0x09), (8, 0x10), (8, 0x50), (8, 0x60), (8, 0x80)],
      (nextOf (step (State.reset.withFetchWord x.1 x.2))).isSome = true := by decide

/-! ### Closed forms and host tools: 95_test_vectors.md section 4, 30_encoding.md R55 -/

theorem test_zeroCount : (zeroCount 0, zeroCount 55, zeroCount 56, zeroCount 63, zeroCount 64) = (55, 0, 63, 56, 55) := by decide
theorem test_engineSteps : (engineSteps 3, engineSteps 56, engineSteps 1000) = (177, 303, 1865) := by decide
theorem test_assemble : assembleText [' ', 'a', 'b', 's', 'o', 'r', 'b', ' ', '0', 'x', '6', '1', ' ', ';', 'c'] = some [0x2061] ∧
    assembleText ['R', 'D', 'H', ' ', '8'] = none := by decide
/-- A quoted apostrophe with a comment after it, and a quoted semicolon (R55). -/
theorem test_assemble_quotes :
    assembleText ['A', 'B', 'S', 'O', 'R', 'B', ' ', singleQuote, singleQuote, singleQuote, ' ', ';', 'c'] = some [0x2027] ∧
    assembleText ['A', 'B', 'S', 'O', 'R', 'B', ' ', singleQuote, ';', singleQuote, ';'] = some [0x203B] := by decide
theorem test_wordHex : wordHex 0x07BA7816#32 = ['0', '7', 'B', 'A', '7', '8', '1', '6'] := by decide

/-! ### Witnesses: a concrete state and operands for every hypothesis of the statements -/

theorem witness_wellFormed : (Instr.expandLow 16#6).wellFormed = true ∧ (Instr.expandLow 31#6).wellFormed = true ∧
    (Instr.expandHigh 32#6).wellFormed = true ∧ (Instr.expandHigh 63#6).wellFormed = true := by decide

theorem witness_decodes : decodeCodeWord (.cmd16 0x20FF#16) = .ok (.absorb 0xFF#8) ∧
    decodeCodeWord (.seq8 0x17#8) = .ok (.padLen 7#3) := by decide

theorem witness_bit_index : (31 : Nat) < 32 ∧ (0 : Nat) < 32 ∧ 1 ≤ (1 : Nat) ∧ (31 : Nat) ≤ 31 := by decide

theorem witness_wide_word : 65536 ≤ (0x11000 : Nat) := by decide

theorem witness_reserved : (st 0x07#8 0#7 0#64 .accept).isReserved = true ∧ (st 0xC0#8 0#7 0#64 .accept).isReserved = true := by decide

theorem witness_not_reset_next : ∀ rest, (st 0x07#8 0#7 0#64 .accept).inputs ≠ .reset :: rest := by intro rest h; cases h

theorem witness_step_next : ∃ s t : State, step s = .next t := ⟨st 0x05#8 0#7 0#64 .done, _, rfl⟩

theorem witness_rest : (st 0x00#8 0#7 0#64 .accept).isRest = true ∧ (st 0x03#8 63#7 0#64 .accept).isRest = true := by decide

theorem witness_busy : (st 0x04#8 64#7 0#64 .accept).isBusy = true ∧ (st 0xBF#8 0#7 0#64 .done).isBusy = true := by decide

theorem witness_absorb_clauses :
    ((st 0x01#8 63#7 0xFFFFFFFFFFFFFFF8#64 .accept).seq = 0x01#8 ∧
      (st 0x01#8 63#7 0xFFFFFFFFFFFFFFF8#64 .accept).len = 0xFFFFFFFFFFFFFFF8#64) ∧
    ((st 0x01#8 62#7 0xFFFFFFFFFFFFFFF0#64 .accept).len ≠ 0xFFFFFFFFFFFFFFF8#64 ∧
      (st 0x01#8 62#7 0xFFFFFFFFFFFFFFF0#64 .accept).n.toNat ≤ 62) ∧
    ((st 0x01#8 63#7 504#64 .accept).len ≠ 0xFFFFFFFFFFFFFFF8#64 ∧ (st 0x01#8 63#7 504#64 .accept).n = 63#7) ∧
    (st 0x00#8 0#7 0#64 .accept).seq = 0x00#8 ∧ (st 0x02#8 0#7 0#64 .done).seq = 0x02#8 ∧
    (st 0x03#8 63#7 0#64 .accept).seq = 0x03#8 := by decide

theorem witness_rdh_index : 8 ≤ (8#4).toNat ∧ 8 ≤ (15#4).toNat := by decide

theorem witness_rdstat_on_port :
    ({ st 0x85#8 0#7 0#64 .done with port := some 0x5000 }).isReserved = false ∧
    ({ st 0x85#8 0#7 0#64 .done with port := some 0x5000 }).inputs = [] := by decide

theorem witness_exec_command : ∃ s t : State, exec .init s = .next t := ⟨st 0x01#8 2#7 16#64 .accept, _, rfl⟩

theorem witness_exec_busy : ∃ t : State, exec .loadv (st 0x05#8 0#7 0#64 .done) = .next t ∧ (st 0x05#8 0#7 0#64 .done).isBusy = true :=
  ⟨_, rfl, by decide⟩

theorem witness_illegal_word : decodeCommand 0x4800 = .error .indexOutOfRange ∧
    ({ st 0x85#8 0#7 0#64 .done with port := some 0x4800 }).isReserved = false ∧
    ({ st 0x85#8 0#7 0#64 .done with port := some 0x4800 }).inputs = [] ∧
    ({ st 0x85#8 0#7 0#64 .done with inputs := [.command 0x4800] }).inputs = .command 0x4800 :: [] ∧
    ({ st 0x85#8 0#7 0#64 .done with inputs := [.command 0x4800] }).port = none := by decide

theorem witness_pad_clauses :
    (st 0x08#8 62#7 0#64 .accept).n.toNat ≤ 62 ∧ (st 0x08#8 63#7 0#64 .accept).n = 63#7 ∧
    (st 0x09#8 56#7 0#64 .accept).n = 56#7 ∧
    ((st 0x09#8 57#7 0#64 .accept).n.toNat ≤ 62 ∧ (st 0x09#8 57#7 0#64 .accept).n ≠ 56#7) ∧
    ((st 0x09#8 62#7 0#64 .accept).n.toNat ≤ 62 ∧ (st 0x09#8 62#7 0#64 .accept).n ≠ 56#7) ∧
    ((6#3).toNat ≤ 6 ∧ (st 0x16#8 62#7 0#64 .accept).n.toNat = 56 + (6#3).toNat) ∧
    ((0#3).toNat ≤ 6 ∧ (st 0x10#8 56#7 0#64 .accept).n.toNat = 56 + (0#3).toNat) := by decide

theorem witness_expand_index : 16 ≤ (16#6).toNat ∧ 16 ≤ (31#6).toNat ∧ 16 ≤ (32#6).toNat ∧ 16 ≤ (63#6).toNat := by decide

theorem witness_round_terms : ∃ (s : State) (t1 t2 : Word),
    t1 = s.vAt 7#3 + bsig1 (s.vAt 4#3) + ch (s.vAt 4#3) (s.vAt 5#3) (s.vAt 6#3) + kAt 63#6 + s.wAt 63#6 ∧
    t2 = bsig0 (s.vAt 0#3) + maj (s.vAt 0#3) (s.vAt 1#3) (s.vAt 2#3) := ⟨st 0xBF#8 0#7 0#64 .done, _, _, rfl, rfl⟩

theorem witness_waiting : (st 0x01#8 0#7 0#64 .accept).isRest = true ∧ (st 0x01#8 0#7 0#64 .accept).inputs = [] ∧
    (st 0x01#8 0#7 0#64 .accept).port = none := by decide

theorem witness_engine_code : (st 0x50#8 0#7 0#64 .done).isBusy = true ∧ (st 0x50#8 0#7 0#64 .done).inputs = [] ∧
    (st 0x50#8 0#7 0#64 .done).port = none ∧ decodeSeq (st 0x50#8 0#7 0#64 .done).seq = .ok (.expandLow 16#6) := by decide

theorem witness_exec_next_of_code : ∃ t : State, decodeSeq 0x80#8 = .ok (.round 0#6) ∧
    exec (.round 0#6) (st 0x80#8 0#7 0#64 .done) = .next t := ⟨_, by decide, rfl⟩

/-- One outcome that is OK and one that is not, from states of the invariant. -/
theorem witness_length_grows :
    (∃ t : State, (st 0x01#8 1#7 8#64 .accept).inv = true ∧
      exec (.absorb 0x00#8) (st 0x01#8 1#7 8#64 .accept) = .next t ∧
      t.responses = (st 0x01#8 1#7 8#64 .accept).responses ++ [⟨.ok, 0#32⟩]) ∧
    (∃ t : State, (st 0x04#8 64#7 512#64 .accept).inv = true ∧
      exec (.absorb 0x00#8) (st 0x04#8 64#7 512#64 .accept) = .next t ∧
      t.responses ≠ (st 0x04#8 64#7 512#64 .accept).responses ++ [⟨.ok, 0#32⟩]) :=
  ⟨⟨_, by decide, rfl, rfl⟩, ⟨_, by decide, rfl, by decide⟩⟩

theorem witness_command_decided :
    ({ st 0x01#8 0#7 0#64 .accept with port := some 0x3000 }).inputs = [] ∧ decodeCommand 0x3000 = .ok .final ∧
    ({ st 0x01#8 0#7 0#64 .accept with port := some 0x3000 }).isReserved = false ∧
    ({ st 0x01#8 0#7 0#64 .accept with port := some 0x3000 }).isRest = true := by decide

theorem witness_command_held :
    ({ st 0x05#8 0#7 0#64 .done with port := some 0x4000 }).inputs = [] ∧ decodeCommand 0x4000 = .ok (.rdh 0#3) ∧
    Instr.rdh 0#3 ≠ .rdstat ∧ ({ st 0x05#8 0#7 0#64 .done with port := some 0x4000 }).isBusy = true ∧
    decodeSeq ({ st 0x05#8 0#7 0#64 .done with port := some 0x4000 }).seq = .ok .loadv := by decide

theorem witness_host_events :
    ({ st 0x01#8 0#7 0#64 .accept with inputs := [.command 0x3000, .poll] }).inputs = .command 0x3000 :: [.poll] ∧
    ({ st 0x05#8 0#7 0#64 .done with inputs := [.command 0x4100], port := some 0x4000 }).port = some 0x4000 ∧
    ({ st 0x05#8 0#7 0#64 .done with inputs := [.pass] }).inputs = .pass :: [] := by decide

theorem witness_advance_next : ∃ t : State, advance (st 0x05#8 0#7 0#64 .done) = .next t := ⟨_, rfl⟩

theorem witness_poll : ({ st 0x8A#8 0#7 512#64 .accept with inputs := [.poll] }).inputs = .poll :: [] ∧
    ({ st 0x8A#8 0#7 512#64 .accept with inputs := [.poll] }).isReserved = false := by decide

theorem witness_table_word : decodeTableWord 16 0x2061 = some (.absorb 0x61#8) ∧ decodeTableWord 8 0x50 = some (.expandLow 16#6) := by
  decide

theorem witness_reset_event : ({ st 0x85#8 0#7 24#64 .done with inputs := [.reset] }).inputs = .reset :: [] := by decide

/-- Every row of the invariant's table has a state. -/
theorem witness_invariant :
    (st 0x00#8 0#7 0#64 .accept).inv = true ∧ (st 0x01#8 63#7 0xFFFFFFFFFFFFFFF8#64 .accept).inv = true ∧
    (st 0x08#8 1#7 8#64 .accept).inv = true ∧ (st 0x09#8 57#7 448#64 .padZero).inv = true ∧
    (st 0x17#8 63#7 24#64 .accept).inv = true ∧ (st 0x04#8 64#7 512#64 .accept).inv = true ∧
    (st 0x50#8 0#7 24#64 .done).inv = true ∧ (st 0x7F#8 0#7 24#64 .padZero).inv = true ∧
    (st 0x05#8 0#7 24#64 .done).inv = true ∧ (st 0xBF#8 0#7 512#64 .accept).inv = true ∧
    (st 0x06#8 0#7 24#64 .done).inv = true ∧ (st 0x02#8 0#7 24#64 .done).inv = true ∧
    (st 0x03#8 63#7 0xFFFFFFFFFFFFFFF8#64 .accept).inv = true := by decide

theorem witness_invariant_step : ∃ t : State, (st 0x06#8 0#7 24#64 .done).inv = true ∧
    step (st 0x06#8 0#7 24#64 .done) = .next t ∧ t.seq ≠ (st 0x06#8 0#7 24#64 .done).seq :=
  ⟨_, by decide, rfl, by decide⟩

theorem witness_busy_quiet : ∃ t : State, (st 0x08#8 56#7 448#64 .accept).inv = true ∧
    (st 0x08#8 56#7 448#64 .accept).isBusy = true ∧ (st 0x08#8 56#7 448#64 .accept).quiet = true ∧
    step (st 0x08#8 56#7 448#64 .accept) = .next t := ⟨_, by decide, by decide, by decide, rfl⟩

theorem witness_quiet_held : ({ st 0x04#8 64#7 24#64 .done with port := some 0x4000 }).quiet = true ∧
    ({ st 0x04#8 64#7 24#64 .done with port := some 0x4000 }).seq = seqParse := by decide

/-- Two states that differ in V, in `B[5]` and in W, at ACCEPT with one byte in the buffer. -/
theorem witness_agree : ∃ t' : State, (st 0x01#8 1#7 8#64 .accept).inv = true ∧
    (st 0x01#8 1#7 8#64 .accept).Agree { (st 0x01#8 1#7 8#64 .accept).writeB 5#6 0xFF#8 with
      v := Vector.replicate 8 1#32, w := Vector.replicate 64 1#32 } ∧
    step (st 0x01#8 1#7 8#64 .accept) = .next t' := ⟨_, by decide, by unfold State.Agree; decide, rfl⟩

theorem witness_not_done : ∃ t : State, (st 0x01#8 1#7 8#64 .accept).seq ≠ seqDone ∧
    step (st 0x01#8 1#7 8#64 .accept) = .next t := ⟨_, by decide, rfl⟩

theorem witness_session : [0x61#8].length < 2 ^ 61 ∧
    ({ st 0x02#8 0#7 24#64 .done with inputs := (sessionWords [0x61#8]).map .command }).isRest = true ∧
    ({ st 0x02#8 0#7 24#64 .done with inputs := (sessionWords [0x61#8]).map .command }).port = none := by decide

theorem witness_schedule_index : 16 ≤ (16#6).toNat ∧ 16 ≤ (63#6).toNat := by decide

theorem witness_assembles : assemble (.absorb 255) = some [0x20FF] ∧ assemble (.rdh 7) = some [0x4700] ∧
    255 < (256 : Nat) ∧ 7 < (8 : Nat) := by decide

/-- A string, and two pairs of digits, that meet the premises of the pseudo-instructions' expansions. -/
theorem witness_pseudo_operands : (∀ c ∈ ['a', '~'], c.toNat ≤ 127) ∧
    (∀ p ∈ [(('0', 0), ('F', 15)), (('A', 10), ('9', 9))], p.1 ∈ hexDigitValues ∧ p.2 ∈ hexDigitValues) ∧
    (∀ p ∈ [(('f', 15), ('F', 15))], hexDigit p.1.1 = some p.1.2 ∧ hexDigit p.2.1 = some p.2.2) := by
  simp [hexDigitValues, hexDigit]

/-- Operands the pseudo-instructions refuse. -/
theorem witness_refused_operands : (∃ c ∈ ['a', '\u00e9'], 127 < c.toNat) ∧ ['0', '1', '2'].length % 2 = 1 ∧
    (∃ c ∈ ['0', 'g'], hexDigit c = none) := by
  simp [hexDigit]

end Sys2Proof.Tests
end

/-! The fields of STATUS (10_state.md R19). STATUS is the union of six fields, each placed at an offset:
`getLsbD_placed` says what the bits of a placed field are, `State.getLsbD_statusWord` what each bit of STATUS is, and the
flags, the copies of SEQ and N and the reserved ranges are read off the latter. -/

namespace Sys2Proof.Machine

/-- The bits of a field of `w` bits placed at bit `k` of a word it fits into. -/
theorem getLsbD_placed {w k : Nat} (x : BitVec w) (i : Nat) (fits : w + k ≤ 32) :
    (x.setWidth 32 <<< k).getLsbD i = (decide (k ≤ i) && x.getLsbD (i - k)) := by
  by_cases inside : i - k < w
  · have : i - k < 32 := by omega
    by_cases hk : k ≤ i
    · have : i < 32 := by omega
      simp [*]
    · simp [Nat.lt_of_not_le hk, hk]
  · simp [BitVec.getLsbD_of_ge x (i - k) (Nat.le_of_not_lt inside)]

/-- A flag placed at bit `k` is that bit and no other. -/
theorem getLsbD_bitWord_shiftLeft (x : Bool) {k : Nat} (i : Nat) (fits : 1 + k ≤ 32) :
    (bitWord x <<< k).getLsbD i = (decide (i = k) && x) := by
  have at_k : (k ≤ i ∧ i - k = 0) ↔ i = k := by omega
  rw [bitWord, getLsbD_placed _ _ fits, BitVec.getLsbD_ofBool, ← Bool.and_assoc, ← Bool.decide_and]
  simp only [at_k]

theorem getLsbD_bitWord (x : Bool) (i : Nat) : (bitWord x).getLsbD i = (decide (i = 0) && x) := by
  simpa using getLsbD_bitWord_shiftLeft x (k := 0) i (by decide)

namespace State

/-- Every bit of STATUS: the flags at 0 to 3, SEQ from 8 and N from 16. -/
theorem getLsbD_statusWord (s : State) (i : Nat) : s.statusWord.getLsbD i =
    (decide (16 ≤ i) && s.n.getLsbD (i - 16) || decide (8 ≤ i) && s.seq.getLsbD (i - 8) ||
      decide (i = 3) && s.errFlag || decide (i = 2) && s.valid || decide (i = 1) && s.accepting ||
      decide (i = 0) && s.isRest) := by
  simp only [statusWord, BitVec.getLsbD_or, getLsbD_placed, getLsbD_bitWord_shiftLeft, getLsbD_bitWord, Nat.reduceAdd,
    Nat.reduceLeDiff]

/-- Above the flags STATUS has SEQ and N alone. -/
theorem getLsbD_statusWord_of_four_le (s : State) {i : Nat} (h : 4 ≤ i) : s.statusWord.getLsbD i =
    (decide (16 ≤ i) && s.n.getLsbD (i - 16) || decide (8 ≤ i) && s.seq.getLsbD (i - 8)) := by
  simp [getLsbD_statusWord, show i ≠ 3 by omega, show i ≠ 2 by omega, show i ≠ 1 by omega, show i ≠ 0 by omega]

/-! The four flags are bits 0 to 3, each 1 at the codes of SEQ that R19 names -/
theorem getLsbD_statusWord_zero (s : State) : s.statusWord.getLsbD 0 = s.isRest := by
  rw [getLsbD_statusWord]; simp
theorem getLsbD_statusWord_one (s : State) : s.statusWord.getLsbD 1 = s.accepting := by
  rw [getLsbD_statusWord]; simp
theorem getLsbD_statusWord_two (s : State) : s.statusWord.getLsbD 2 = s.valid := by
  rw [getLsbD_statusWord]; simp
theorem getLsbD_statusWord_three (s : State) : s.statusWord.getLsbD 3 = s.errFlag := by
  rw [getLsbD_statusWord]; simp

theorem isRest_iff_le_three (s : State) : s.isRest = true ↔ s.seq ≤ 3#8 := decide_eq_true_iff
theorem accepting_iff (s : State) : s.accepting = true ↔ s.seq = 0x01#8 := decide_eq_true_iff
theorem valid_iff (s : State) : s.valid = true ↔ s.seq = 0x02#8 := decide_eq_true_iff
theorem errFlag_iff (s : State) : s.errFlag = true ↔ s.seq = 0x03#8 := decide_eq_true_iff

/-! The two registers STATUS copies, and the reserved ranges beside them -/
theorem extractLsb'_statusWord_seq (s : State) : s.statusWord.extractLsb' 8 8 = s.seq := by
  ext i hi
  have belowN : ¬ 16 ≤ 8 + i := by omega
  simp [getLsbD_statusWord_of_four_le s (show 4 ≤ 8 + i by omega), belowN, hi]
theorem extractLsb'_statusWord_n (s : State) : s.statusWord.extractLsb' 16 7 = s.n := by
  ext i hi
  have aboveSeq : s.seq.getLsbD (16 + i - 8) = false := BitVec.getLsbD_of_ge _ _ (by omega)
  simp [getLsbD_statusWord_of_four_le s (show 4 ≤ 16 + i by omega), aboveSeq, hi]
theorem extractLsb'_statusWord_low_reserved (s : State) : s.statusWord.extractLsb' 4 4 = 0#4 := by
  ext i hi
  have belowSeq : ¬ 8 ≤ 4 + i := by omega
  have belowN : ¬ 16 ≤ 4 + i := by omega
  simp [getLsbD_statusWord_of_four_le s (show 4 ≤ 4 + i by omega), belowSeq, belowN]
theorem extractLsb'_statusWord_high_reserved (s : State) : s.statusWord.extractLsb' 23 9 = 0#9 := by
  ext i hi
  have aboveSeq : s.seq.getLsbD (23 + i - 8) = false := BitVec.getLsbD_of_ge _ _ (by omega)
  have aboveN : s.n.getLsbD (23 + i - 16) = false := BitVec.getLsbD_of_ge _ _ (by omega)
  simp [getLsbD_statusWord_of_four_le s (show 4 ≤ 23 + i by omega), aboveSeq, aboveN]

end State

/-- Settles O18: each flag is its bit of STATUS and is 1 exactly at its codes; the other fields are the ranges of bits. -/
theorem statusFieldsAreFunctionsOfSeqAndN : Obligations.StatusFieldsAreFunctionsOfSeqAndN := by
  intro s
  rw [s.getLsbD_statusWord_zero, s.getLsbD_statusWord_one, s.getLsbD_statusWord_two, s.getLsbD_statusWord_three]
  exact ⟨s.isRest_iff_le_three, s.accepting_iff, s.valid_iff, s.errFlag_iff, s.extractLsb'_statusWord_low_reserved,
    s.extractLsb'_statusWord_seq, s.extractLsb'_statusWord_n, s.extractLsb'_statusWord_high_reserved⟩

end Sys2Proof.Machine

/-! Command words (30_encoding.md R45 to R49). A word is its three fields (`eq_cmdWord_iff`), so an equation between words, or a
mask applied to one, is a statement about each field. The words that decode are exactly the encodings of the commands
(`decodeCmd16_eq_ok_iff`), and what R47 says of a row's mask is read off the encoding. -/

namespace Sys2Proof

/-! ### The fields of a command word (R45) -/

@[simp] theorem cmdOp_cmdWord (op idx : BitVec 4) (data : Byte) : cmdOp (cmdWord op idx data) = op := by
  change (op ++ idx ++ data).extractLsb' 12 4 = op
  rw [BitVec.extractLsb'_append_eq_of_le (by decide)]
  exact BitVec.extractLsb'_append_eq_left

@[simp] theorem cmdIdx_cmdWord (op idx : BitVec 4) (data : Byte) : cmdIdx (cmdWord op idx data) = idx := by
  change (op ++ idx ++ data).extractLsb' 8 4 = idx
  rw [BitVec.extractLsb'_append_eq_of_le (by decide)]
  exact BitVec.extractLsb'_append_eq_right

@[simp] theorem cmdData_cmdWord (op idx : BitVec 4) (data : Byte) : cmdData (cmdWord op idx data) = data :=
  BitVec.extractLsb'_append_eq_right

theorem cmdWord_of_fields (w : BitVec 16) : cmdWord (cmdOp w) (cmdIdx w) (cmdData w) = w := by
  have high : cmdOp w ++ cmdIdx w = w.extractLsb' 8 8 := BitVec.extractLsb'_append_extractLsb'_eq_extractLsb' rfl
  have all : w.extractLsb' 8 8 ++ cmdData w = w.extractLsb' 0 16 :=
    BitVec.extractLsb'_append_extractLsb'_eq_extractLsb' rfl
  rw [cmdWord, high, all, BitVec.extractLsb'_eq_self]

theorem eq_cmdWord_iff {w : BitVec 16} {op idx : BitVec 4} {data : Byte} :
    w = cmdWord op idx data ↔ cmdOp w = op ∧ cmdIdx w = idx ∧ cmdData w = data := by
  constructor
  · rintro rfl
    simp
  · rintro ⟨rfl, rfl, rfl⟩
    exact (cmdWord_of_fields w).symm

theorem cmdWord_and_cmdWord (op idx op' idx' : BitVec 4) (data data' : Byte) :
    cmdWord op idx data &&& cmdWord op' idx' data' = cmdWord (op &&& op') (idx &&& idx') (data &&& data') := by
  simp only [cmdWord, ← BitVec.and_append]

/-- `w & mask = match`, field by field. -/
theorem and_cmdWord_eq_cmdWord_iff {w : BitVec 16} {op idx op' idx' : BitVec 4} {data data' : Byte} :
    w &&& cmdWord op idx data = cmdWord op' idx' data' ↔
      cmdOp w &&& op = op' ∧ cmdIdx w &&& idx = idx' ∧ cmdData w &&& data = data' := by
  conv_lhs => rw [← cmdWord_of_fields w, cmdWord_and_cmdWord]
  simp only [eq_cmdWord_iff, cmdOp_cmdWord, cmdIdx_cmdWord, cmdData_cmdWord]

theorem toNat_cmdWord (op idx : BitVec 4) (data : Byte) :
    (cmdWord op idx data).toNat = 0x1000 * op.toNat + 0x100 * idx.toNat + data.toNat := by
  have hidx : idx.toNat < 2 ^ 4 := idx.isLt
  have hdata : data.toNat < 2 ^ 8 := data.isLt
  rw [cmdWord, BitVec.toNat_append, BitVec.toNat_append, ← Nat.shiftLeft_add_eq_or_of_lt hidx,
    ← Nat.shiftLeft_add_eq_or_of_lt hdata, Nat.shiftLeft_eq, Nat.shiftLeft_eq]
  omega

/-! ### The encodings of the commands with an operand (R47, R48) -/

theorem toNat_encode_absorb (bb : Byte) : (encode (.absorb bb)).toNat = 0x2000 + bb.toNat :=
  toNat_cmdWord 0x2#4 0#4 bb

theorem toNat_encode_rdh (k : BitVec 3) : (encode (.rdh k)).toNat = 0x4000 + 0x100 * k.toNat := by
  have small : k.toNat < 2 ^ 4 := by omega
  have h := toNat_cmdWord 0x4#4 (k.setWidth 4) 0#8
  rwa [BitVec.toNat_setWidth, Nat.mod_eq_of_lt small] at h

/-- IDX holds a digest word index exactly when its highest bit is clear (R48). -/
theorem eq_setWidth_iff {idx : BitVec 4} {k : BitVec 3} :
    idx = k.setWidth 4 ↔ idx &&& 8#4 = 0#4 ∧ idx.extractLsb' 0 3 = k := by
  revert idx k
  decide

theorem extractLsb'_three_eq_one_iff {idx : BitVec 4} : idx.extractLsb' 3 1 = 1#1 ↔ ¬ idx &&& 8#4 = 0#4 := by
  revert idx
  decide

theorem cmd16_cmdWord_eq_iff {w : BitVec 16} {op idx : BitVec 4} {data : Byte} :
    CodeWord.cmd16 (cmdWord op idx data) = .cmd16 w ↔ cmdOp w = op ∧ cmdIdx w = idx ∧ cmdData w = data := by
  rw [CodeWord.cmd16.injEq, eq_comm, eq_cmdWord_iff]

/-! ### Decoding inverts encoding -/

theorem decodePlain_eq_ok_iff {i j : Instr} {idx : BitVec 4} {data : Byte} :
    decodePlain i idx data = .ok j ↔ (idx = 0#4 ∧ data = 0#8) ∧ i = j := by
  unfold decodePlain
  split <;> simp [*]

theorem encode_of_decodeCmd16 {w : BitVec 16} {i : Instr} (h : decodeCmd16 w = .ok i) : encode i = .cmd16 w := by
  simp only [decodeCmd16, extractLsb'_three_eq_one_iff] at h
  split_ifs at h with init absorb noIdx final rdh idx noData rdstat
  · obtain ⟨⟨noIdx, noData⟩, rfl⟩ := decodePlain_eq_ok_iff.mp h
    exact cmd16_cmdWord_eq_iff.mpr ⟨init, noIdx, noData⟩
  · cases h
    exact cmd16_cmdWord_eq_iff.mpr ⟨absorb, noIdx, rfl⟩
  · obtain ⟨⟨noIdx, noData⟩, rfl⟩ := decodePlain_eq_ok_iff.mp h
    exact cmd16_cmdWord_eq_iff.mpr ⟨final, noIdx, noData⟩
  · cases h
    exact cmd16_cmdWord_eq_iff.mpr ⟨rdh, eq_setWidth_iff.mpr ⟨idx, rfl⟩, noData⟩
  · obtain ⟨⟨noIdx, noData⟩, rfl⟩ := decodePlain_eq_ok_iff.mp h
    exact cmd16_cmdWord_eq_iff.mpr ⟨rdstat, noIdx, noData⟩

theorem decodeCmd16_of_encode {w : BitVec 16} {i : Instr} (h : encode i = .cmd16 w) : decodeCmd16 w = .ok i := by
  cases i
  case rdh k =>
    obtain ⟨op, idx, data⟩ := cmd16_cmdWord_eq_iff.mp h
    obtain ⟨inRange, rfl⟩ := eq_setWidth_iff.mp idx
    simp [decodeCmd16, extractLsb'_three_eq_one_iff, op, inRange, data]
  case init | absorb | final | rdstat =>
    obtain ⟨op, idx, data⟩ := cmd16_cmdWord_eq_iff.mp h
    simp [decodeCmd16, decodePlain, op, idx, data]
  all_goals cases h

/-- The words that decode are the encodings of the commands (R47 to R49). -/
theorem decodeCmd16_eq_ok_iff {w : BitVec 16} {i : Instr} : decodeCmd16 w = .ok i ↔ encode i = .cmd16 w :=
  ⟨encode_of_decodeCmd16, decodeCmd16_of_encode⟩

theorem decodeCommand_toNat (w : BitVec 16) : decodeCommand w.toNat = decodeCmd16 w := by
  rw [decodeCommand, if_pos w.isLt, BitVec.ofNat_toNat, BitVec.setWidth_eq]

theorem decodeCommand_toNat_eq_ok_iff {w : BitVec 16} {i : Instr} :
    decodeCommand w.toNat = .ok i ↔ encode i = .cmd16 w := by
  rw [decodeCommand_toNat, decodeCmd16_eq_ok_iff]

theorem lt_of_decodeCommand {w : Nat} {i : Instr} (h : decodeCommand w = .ok i) : w < 65536 := by
  unfold decodeCommand at h
  split at h
  · assumption
  · cases h

theorem decodeCommand_eq_ok_iff {w : Nat} {i : Instr} :
    decodeCommand w = .ok i ↔ ∃ v, encode i = .cmd16 v ∧ v.toNat = w := by
  constructor
  · intro h
    have fits : (BitVec.ofNat 16 w).toNat = w := Nat.mod_eq_of_lt (lt_of_decodeCommand h)
    rw [← fits, decodeCommand_toNat_eq_ok_iff] at h
    exact ⟨_, h, fits⟩
  · rintro ⟨v, h, rfl⟩
    exact decodeCommand_toNat_eq_ok_iff.mpr h

/-! ### The legal words, listed and counted (R47, R49) -/

/-- INIT, FINAL and RDSTAT, the 256 ABSORBs and the 8 RDHs. -/
def legalWords : List Nat := [0x1000, 0x3000, 0x5000] ++ (List.range' 0x2000 256 ++ List.range' 0x4000 8 0x100)

theorem mem_legalWords_iff_or {w : Nat} : w ∈ legalWords ↔
    w ∈ [0x1000, 0x3000, 0x5000] ∨ (∃ k < 256, w = 0x2000 + k) ∨ ∃ k < 8, w = 0x4000 + 0x100 * k := by
  simp only [legalWords, List.mem_append, List.mem_range', Nat.one_mul]

theorem nodup_legalWords : legalWords.Nodup := by
  have absorb_ne_rdh : (List.range' 0x2000 256).Disjoint (List.range' 0x4000 8 0x100) := by
    intro w absorb rdh
    rw [List.mem_range'] at absorb rdh
    omega
  have plain_ne : List.Disjoint [0x1000, 0x3000, 0x5000] (List.range' 0x2000 256 ++ List.range' 0x4000 8 0x100) := by
    intro w plain other
    simp only [List.mem_append, List.mem_range', List.mem_cons, List.not_mem_nil, or_false] at plain other
    obtain ⟨k, hk⟩ | ⟨k, hk⟩ := other <;> omega
  exact List.Nodup.append (by decide) (.append List.nodup_range' (List.nodup_range' _) absorb_ne_rdh) plain_ne

/-- The list is complete and holds nothing else. -/
theorem mem_legalWords_iff {w : Nat} : w ∈ legalWords ↔ ∃ i, decodeCommand w = .ok i := by
  simp only [decodeCommand_eq_ok_iff, mem_legalWords_iff_or]
  constructor
  · rintro (plain | ⟨k, hk, rfl⟩ | ⟨k, hk, rfl⟩)
    · fin_cases plain
      · exact ⟨.init, _, rfl, rfl⟩
      · exact ⟨.final, _, rfl, rfl⟩
      · exact ⟨.rdstat, _, rfl, rfl⟩
    · refine ⟨.absorb (BitVec.ofNat 8 k), _, rfl, ?_⟩
      exact (toNat_encode_absorb _).trans (congrArg _ (Nat.mod_eq_of_lt hk))
    · refine ⟨.rdh (BitVec.ofNat 3 k), _, rfl, ?_⟩
      exact (toNat_encode_rdh _).trans (by rw [BitVec.toNat_ofNat, Nat.mod_eq_of_lt hk])
  · rintro ⟨i, v, h, rfl⟩
    have toNat_v : v.toNat = (encode i).toNat := by rw [h]; rfl
    cases i
    case absorb bb => exact .inr (.inl ⟨bb.toNat, bb.isLt, toNat_v.trans (toNat_encode_absorb bb)⟩)
    case rdh k => exact .inr (.inr ⟨k.toNat, k.isLt, toNat_v.trans (toNat_encode_rdh k)⟩)
    case init | final | rdstat => exact .inl (toNat_v ▸ by decide)
    all_goals cases h

/-! ### The masks of the rows (R47) -/

/-- A row without operands: its mask is the whole word. -/
theorem encode_eq_iff_of_full_mask {w m : BitVec 16} {i : Instr} (h : encode i = .cmd16 m) :
    encode i = .cmd16 w ↔ w &&& 0xFFFF#16 = m := by
  rw [h, CodeWord.cmd16.injEq, eq_comm]
  exact (congrArg (· = m) BitVec.and_allOnes.symm).to_iff

theorem encode_absorb_eq_iff {w : BitVec 16} {bb : Byte} :
    encode (.absorb bb) = .cmd16 w ↔ w &&& 0xFF00#16 = 0x2000#16 ∧ bb = w.extractLsb' 0 8 := by
  have mask : w &&& 0xFF00#16 = 0x2000#16 ↔ cmdOp w = 2#4 ∧ cmdIdx w = 0#4 := by
    have fields := and_cmdWord_eq_cmdWord_iff (w := w) (op := .allOnes 4) (idx := .allOnes 4) (data := 0#8)
      (op' := 2#4) (idx' := 0#4) (data' := 0#8)
    simp only [BitVec.and_allOnes, BitVec.and_zero, and_true] at fields
    exact fields
  rw [encode, cmd16_cmdWord_eq_iff, mask, and_assoc, eq_comm (a := bb), cmdData]

theorem encode_rdh_eq_iff {w : BitVec 16} {k : BitVec 3} :
    encode (.rdh k) = .cmd16 w ↔ w &&& 0xF8FF#16 = 0x4000#16 ∧ k = w.extractLsb' 8 3 := by
  have mask : w &&& 0xF8FF#16 = 0x4000#16 ↔ cmdOp w = 4#4 ∧ cmdIdx w &&& 8#4 = 0#4 ∧ cmdData w = 0#8 := by
    have fields := and_cmdWord_eq_cmdWord_iff (w := w) (op := .allOnes 4) (idx := 8#4) (data := .allOnes 8)
      (op' := 4#4) (idx' := 0#4) (data' := 0#8)
    simp only [BitVec.and_allOnes] at fields
    exact fields
  have low : w.extractLsb' 8 3 = (cmdIdx w).extractLsb' 0 3 := by
    ext i hi
    simp [cmdIdx, show i < 4 by omega]
  rw [encode, cmd16_cmdWord_eq_iff, mask, low, eq_setWidth_iff, eq_comm (a := k)]
  tauto

/-- Settles O3: the legal words are the encodings of the commands, and each row's mask leaves its operand's bits free. -/
theorem commandWordMatchesItsRow : Obligations.CommandWordMatchesItsRow := by
  refine ⟨⟨legalWords, nodup_legalWords, by simp [legalWords], fun _ => mem_legalWords_iff⟩, fun w => ?_⟩
  simp only [decodeCommand_toNat_eq_ok_iff]
  exact ⟨encode_eq_iff_of_full_mask rfl, fun _ => encode_absorb_eq_iff, encode_eq_iff_of_full_mask rfl,
    fun _ => encode_rdh_eq_iff, encode_eq_iff_of_full_mask rfl⟩

end Sys2Proof

/-! Reserved sequencer codes (30_encoding.md R53): which codes the decoder refuses, how many there are in each class of codes, and
that a state whose SEQ holds one has no step but the reset event. -/

namespace Sys2Proof

theorem exists_eq_error_iff {ε α : Type} {r : Except ε α} : (∃ e, r = .error e) ↔ r.isOk = false := by
  cases r <;> simp [Except.isOk, Except.toBool]

/-- The decoder refuses the codes of R53's list and no other: one evaluation for each of the 256 codes. -/
theorem isOk_decodeSeq_eq_false_iff : ∀ c : BitVec 8, (decodeSeq c).isOk = false ↔
    (c = 0x07#8 ∨ (0x0A#8 ≤ c ∧ c ≤ 0x0F#8) ∨ (0x18#8 ≤ c ∧ c ≤ 0x3F#8) ∨ (0x40#8 ≤ c ∧ c ≤ 0x4F#8) ∨ 0xC0#8 ≤ c) := by
  decide

/-- A number below 256 is a reserved code. -/
def isReservedCode (c : Nat) : Bool := !(decodeSeq (BitVec.ofNat 8 c)).isOk

/-- The codes by their class, `SEQ[7:6]` (R50). -/
theorem range_eq_classes :
    List.range 256 = List.range' 0x00 64 ++ (List.range' 0x40 64 ++ (List.range' 0x80 64 ++ List.range' 0xC0 64)) := by
  rw [List.range_eq_range', show 256 = 64 + (64 + (64 + 64)) from rfl, ← List.range'_append_1, ← List.range'_append_1,
    ← List.range'_append_1]

/-- The reserved codes of each class: 47 of control, 16 of EXPAND, none of ROUND, all of the last (R53). -/
theorem countP_isReservedCode_classes :
    (List.range' 0x00 64).countP isReservedCode = 47 ∧ (List.range' 0x40 64).countP isReservedCode = 16 ∧
    (List.range' 0x80 64).countP isReservedCode = 0 ∧ (List.range' 0xC0 64).countP isReservedCode = 64 := by
  decide

theorem length_filter_isReservedCode : ((List.range 256).filter isReservedCode).length = 127 := by
  obtain ⟨control, expand, round, last⟩ := countP_isReservedCode_classes
  rw [← List.countP_eq_length_filter, range_eq_classes]
  simp only [List.countP_append, control, expand, round, last]

end Sys2Proof

namespace Sys2Proof.Machine

theorem advance_of_isReserved {s : State} (h : s.isReserved = true) : advance s = .fault .reservedSeq :=
  if_pos h

theorem pollStep_of_isReserved {s : State} (h : s.isReserved = true) : pollStep s = .fault .reservedSeq :=
  if_pos h

/-- No agent has a step at a reserved code: neither a poll nor a step of host or engine (R53). -/
theorem step_of_isReserved {s : State} (h : s.isReserved = true) (noReset : ∀ rest, s.inputs ≠ .reset :: rest) :
    step s = .fault .reservedSeq := by
  unfold step machineStep
  split
  · exact absurd ‹_› (noReset _)
  · exact pollStep_of_isReserved h
  · exact advance_of_isReserved (State.isReserved_congr (takeInput_seq s) ▸ h)

/-- Settles O5: the codes the decoder refuses are the listed ones, counted by class, and a step at one is a fault. -/
theorem reservedCodesAreStuck : Obligations.ReservedCodesAreStuck :=
  ⟨fun c => exists_eq_error_iff.trans (isOk_decodeSeq_eq_false_iff c), length_filter_isReservedCode,
    fun _ => step_of_isReserved⟩

end Sys2Proof.Machine

/-! Responses (30_encoding.md R46): the layout of their 34 bits, and what an instruction returns. Every instruction returns at most
one response, whose DATA is the word it reads when the response is OK and 0 when it is a rejection (`exec_returns`). -/

namespace Sys2Proof.Machine

/-! ### The layout -/

theorem extractLsb'_responseBits_data (r : Response) : r.bits.extractLsb' 0 32 = r.data :=
  BitVec.extractLsb'_append_eq_right

theorem extractLsb'_responseBits_code (r : Response) : r.bits.extractLsb' 32 2 = r.code.bits :=
  BitVec.extractLsb'_append_eq_left

/-! ### What an instruction returns -/

/-- The word an instruction reads for the host: `H[IDX]` for RDH, STATUS for RDSTAT, nothing (0) for any other. -/
def State.dataRead (s : State) : Instr → Word
  | .rdh k => s.hAt k
  | .rdstat => s.statusWord
  | _ => 0#32

/-- From `s` to `t` at most one response is returned: OK with this word, or a rejection with DATA 0. -/
def ReturnsAtMost (data : Word) (s t : State) : Prop :=
  t.responses = s.responses ∨ ∃ c, t.responses = s.responses ++ [⟨c, if c = .ok then data else 0#32⟩]

namespace ReturnsAtMost

variable {s t : State} {data : Word}

theorem of_ok (h : t.responses = s.responses ++ [⟨.ok, data⟩]) : ReturnsAtMost data s t := .inr ⟨.ok, h⟩

theorem raise (s : State) (x : Rejection) (data : Word) : ReturnsAtMost data s (s.raise x) :=
  .inr ⟨x.code, by cases x <;> simp [Rejection.code]⟩

/-- A command that needs a phase returns what its own rule returns, a rejection, or nothing while it is held. -/
theorem of_whenInPhase {c : CodeWord} {phase : BitVec 8} {perform : Result} (h : whenInPhase c phase perform s = .next t)
    (performed : perform = .next t → ReturnsAtMost data s t) : ReturnsAtMost data s t := by
  obtain ⟨-, ⟨-, rfl⟩ | ⟨-, -, rfl⟩ | ⟨-, -, -, hp⟩ | ⟨-, -, -, rfl⟩⟩ := whenInPhase_next h
  · exact .inl (State.hold_responses s c)
  · exact raise s _ data
  · exact performed hp
  · exact raise s _ data

end ReturnsAtMost

theorem push_responses {s t : State} {x : Byte} {r : Ret} {c : BitVec 8} (h : s.push x r c = .next t) :
    t.responses = s.responses := by
  obtain ⟨-, ⟨-, rfl⟩ | ⟨-, rfl⟩⟩ := push_next h <;> simp

theorem expand_responses {s u : State} {t : BitVec 6} (h : s.expand t = .next u) : u.responses = s.responses := by
  obtain ⟨-, rfl⟩ := expand_next h
  simp

theorem execInit_returns {s t : State} (h : execInit s = .next t) : ReturnsAtMost 0#32 s t := by
  obtain ⟨-, ⟨-, rfl⟩ | ⟨-, hd⟩⟩ := whenAtRest_next h
  · exact .inl (State.hold_responses s _)
  · cases hd
    exact .of_ok (by simp)

theorem execAbsorb_returns {s t : State} {bb : Byte} (h : execAbsorb bb s = .next t) : ReturnsAtMost 0#32 s t := by
  refine .of_whenInPhase h fun hp => ?_
  split at hp
  · cases hp
    exact .raise s _ _
  · exact .of_ok (push_responses hp)

theorem execFinal_returns {s t : State} (h : execFinal s = .next t) : ReturnsAtMost 0#32 s t := by
  refine .of_whenInPhase h fun hp => ?_
  cases hp
  exact .of_ok (by simp)

theorem execRdh_returns {s t : State} {k : BitVec 3} (h : execRdh k s = .next t) : ReturnsAtMost (s.hAt k) s t := by
  refine .of_whenInPhase h fun hp => ?_
  cases hp
  exact .of_ok (by simp)

theorem execRdstat_responses {s t : State} (h : execRdstat s = .next t) :
    t.responses = s.responses ++ [⟨.ok, s.statusWord⟩] := by
  cases h
  simp

theorem execPadZero_responses {s t : State} (h : execPadZero s = .next t) : t.responses = s.responses := by
  unfold execPadZero at h
  split at h
  · cases h
    simp
  · exact push_responses h

theorem exec_returns {i : Instr} {s t : State} (h : exec i s = .next t) : ReturnsAtMost (s.dataRead i) s t := by
  cases i
  case init => exact execInit_returns h
  case absorb => exact execAbsorb_returns h
  case final => exact execFinal_returns h
  case rdh => exact execRdh_returns h
  case rdstat => exact .of_ok (execRdstat_responses h)
  case padOne | padLen => exact .inl (push_responses h)
  case padZero => exact .inl (execPadZero_responses h)
  case expandLow | expandHigh => exact .inl (expand_responses h)
  case idle | accept | done | err =>
    cases h
    exact .inl rfl
  case parse | loadv | feedfwd | round =>
    simp only [exec, execParse, execLoadv, execFeedfwd, execRound] at h
    cases h
    exact .inl (by simp)

/-- R46's rule for DATA, by the instruction: RDH, RDSTAT, or one that reads nothing. -/
theorem exec_response_cases {i : Instr} {s t : State} (h : exec i s = .next t) :
    t.responses = s.responses ∨ ∃ r, t.responses = s.responses ++ [r] ∧
      ((∃ k, i = .rdh k ∧ r = ⟨.ok, s.hAt k⟩) ∨ (i = .rdstat ∧ r = ⟨.ok, s.statusWord⟩) ∨
       (i ≠ .rdstat ∧ r.data = 0#32 ∧ (r.code = .ok → ∀ k, i ≠ .rdh k))) := by
  by_cases isRdstat : i = .rdstat
  · subst isRdstat
    exact .inr ⟨_, execRdstat_responses h, .inr (.inl ⟨rfl, rfl⟩)⟩
  obtain same | ⟨c, returned⟩ := exec_returns h
  · exact .inl same
  refine .inr ⟨_, returned, ?_⟩
  by_cases ok : c = .ok
  · subst ok
    cases i
    case rdh k => exact .inl ⟨k, rfl, rfl⟩
    case rdstat => exact absurd rfl isRdstat
    all_goals exact .inr (.inr ⟨isRdstat, rfl, by simp⟩)
  · exact .inr (.inr ⟨isRdstat, if_neg ok, fun e => absurd e ok⟩)

/-- An illegal word on the port is rejected at every defined code (R131). -/
theorem step_of_illegal_word {s : State} {w : Nat} {e : DecodeError} (defined : s.isReserved = false)
    (noInputs : s.inputs = []) (onPort : s.port = some w) (illegal : decodeCommand w = .error e) :
    step s = .next (s.raise .illegalCmd) := by
  simp [step_of_no_inputs noInputs, advance, defined, onPort, illegal]

/-- Settles O22: the layout of a response, the cases of what an instruction returns, and the answer to an illegal word. -/
theorem responseDataIsZeroUnlessRead : Obligations.ResponseDataIsZeroUnlessRead := by
  refine ⟨fun r => ⟨extractLsb'_responseBits_data r, ?_⟩, fun _ _ _ => exec_response_cases,
    fun _ _ _ => step_of_illegal_word⟩
  rw [extractLsb'_responseBits_code]
  cases r.code <;> rfl

end Sys2Proof.Machine

/-! The pseudo-instructions of the assembler (30_encoding.md R56): the bytes an operand stands for, by recursion on its characters,
and the command words of those bytes as numbers. -/

namespace Sys2Proof.Machine

/-! ### The words of a pseudo-instruction, from its bytes -/

theorem rdDigestWords_eq : rdDigestWords = [0x4000, 0x4100, 0x4200, 0x4300, 0x4400, 0x4500, 0x4600, 0x4700] := by decide

/-- One ABSORB word for each byte, when the bytes are given as numbers. -/
theorem absorbWords_map_ofNat {α : Type} {f : α → Nat} {xs : List α} (small : ∀ x ∈ xs, f x < 256) :
    absorbWords (xs.map fun x => BitVec.ofNat 8 (f x)) = xs.map fun x => 0x2000 + f x := by
  rw [absorbWords, List.map_map]
  refine List.map_congr_left fun x hx => ?_
  rw [Function.comp_apply, toNat_encode_absorb, BitVec.toNat_ofNat, Nat.mod_eq_of_lt (small x hx)]

theorem sessionWords_eq (m : List Byte) : sessionWords m = [0x1000] ++ absorbWords m ++ [0x3000] ++ rdDigestWords := by
  rw [List.append_assoc, List.append_assoc]
  rfl

/-! ### The bytes of an operand -/

theorem asciiBytes_eq_some {cs : List Char} (ascii : ∀ c ∈ cs, c.toNat ≤ 127) :
    asciiBytes cs = some (cs.map fun c => BitVec.ofNat 8 c.toNat) := by
  induction cs with
  | nil => rfl
  | cons c cs ih =>
    obtain ⟨hc, hcs⟩ := List.forall_mem_cons.mp ascii
    rw [asciiBytes, if_pos hc, ih hcs]
    rfl

theorem hexDigit_lt_16 {c : Char} {x : Nat} (h : hexDigit c = some x) : x < 16 := by
  unfold hexDigit at h
  split_ifs at h <;> cases h <;> omega

theorem hexDigit_of_mem_hexDigitValues : ∀ p ∈ hexDigitValues, hexDigit p.1 = some p.2 := by decide

/-- The bytes of pairs of digits, each digit with its value. -/
theorem hexBytes_eq_some {ps : List ((Char × Nat) × (Char × Nat))}
    (digits : ∀ p ∈ ps, hexDigit p.1.1 = some p.1.2 ∧ hexDigit p.2.1 = some p.2.2) :
    hexBytes (ps.flatMap fun p => [p.1.1, p.2.1]) = some (ps.map fun p => BitVec.ofNat 8 (16 * p.1.2 + p.2.2)) := by
  induction ps with
  | nil => rfl
  | cons p ps ih =>
    obtain ⟨⟨hi, lo⟩, hps⟩ := List.forall_mem_cons.mp digits
    simp only [List.flatMap_cons, List.cons_append, List.nil_append, hexBytes, hi, lo, ih hps, Option.map_some,
      List.map_cons]

/-! ### The expansions -/

theorem assemble_absorbs {cs : List Char} (ascii : ∀ c ∈ cs, c.toNat ≤ 127) :
    assemble (.absorbs cs) = some (cs.map fun c => 0x2000 + c.toNat) := by
  have small : ∀ c ∈ cs, c.toNat < 256 := fun c hc => (ascii c hc).trans_lt (by decide)
  rw [assemble, asciiBytes_eq_some ascii, Option.map_some, absorbWords_map_ofNat small]

theorem assemble_hash {cs : List Char} (ascii : ∀ c ∈ cs, c.toNat ≤ 127) :
    assemble (.hash cs) = some ([0x1000] ++ (cs.map fun c => 0x2000 + c.toNat) ++ [0x3000] ++
      [0x4000, 0x4100, 0x4200, 0x4300, 0x4400, 0x4500, 0x4600, 0x4700]) := by
  have small : ∀ c ∈ cs, c.toNat < 256 := fun c hc => (ascii c hc).trans_lt (by decide)
  rw [assemble, asciiBytes_eq_some ascii, Option.map_some, sessionWords_eq, absorbWords_map_ofNat small,
    rdDigestWords_eq]

theorem assemble_absorbx {ps : List ((Char × Nat) × (Char × Nat))}
    (digits : ∀ p ∈ ps, hexDigit p.1.1 = some p.1.2 ∧ hexDigit p.2.1 = some p.2.2) :
    assemble (.absorbx (ps.flatMap fun p => [p.1.1, p.2.1])) = some (ps.map fun p => 0x2000 + (16 * p.1.2 + p.2.2)) := by
  have small : ∀ p ∈ ps, 16 * p.1.2 + p.2.2 < 256 := fun p hp => by
    have hi := hexDigit_lt_16 (digits p hp).1
    have lo := hexDigit_lt_16 (digits p hp).2
    omega
  rw [assemble, hexBytes_eq_some digits, Option.map_some, absorbWords_map_ofNat small]

/-- Settles O57: each operand's bytes, and the words they assemble to. -/
theorem pseudoInstructionsExpand : Obligations.PseudoInstructionsExpand := by
  refine ⟨fun cs ascii => ⟨asciiBytes_eq_some ascii, assemble_absorbs ascii, assemble_hash ascii⟩, rfl, fun ps mem => ?_,
    congrArg some rdDigestWords_eq⟩
  have digits : ∀ p ∈ ps, hexDigit p.1.1 = some p.1.2 ∧ hexDigit p.2.1 = some p.2.2 := fun p hp =>
    (mem p hp).imp (hexDigit_of_mem_hexDigitValues p.1) (hexDigit_of_mem_hexDigitValues p.2)
  exact ⟨hexBytes_eq_some digits, assemble_absorbx digits⟩

end Sys2Proof.Machine

/-! The bitwise mixing logic (41_bitwise_primitives.md R65 to R74). Addition is given by its value; for the
others the law says which bits of the operands each bit of the result comes from. -/

namespace Sys2Proof.Machine

/-! ### Addition (R65) -/

@[simp] theorem toNat_add32 (x y : Word) : (add32 x y).toNat = (x.toNat + y.toNat) % 2 ^ 32 := BitVec.toNat_add x y

theorem add32_comm (x y : Word) : add32 x y = add32 y x := BitVec.add_comm x y

theorem add32_assoc (x y z : Word) : add32 (add32 x y) z = add32 x (add32 y z) := BitVec.add_assoc x y z

/-- Settles O8: addition of words is addition of `BitVec 32`. -/
theorem addIsModuloTwoToThe32 : Obligations.AddIsModuloTwoToThe32 := ⟨toNat_add32, add32_comm, add32_assoc⟩

/-! ### Rotation and shift (R66, R67) -/

/-- The library splits the result at bit `32 - n % 32`, from which on `i + n % 32` passes 32. -/
theorem getLsbD_rotr (x : Word) (n : Nat) {i : Nat} (hi : i < 32) :
    (rotr x n).getLsbD i = x.getLsbD ((i + n) % 32) := by
  rw [rotr, BitVec.getLsbD_rotateRight, Bool.cond_decide]
  split_ifs with below
  · have unwrapped : n % 32 + i = (i + n) % 32 := by omega
    rw [unwrapped]
  · have wrapped : i - (32 - n % 32) = (i + n) % 32 := by omega
    rw [wrapped, decide_eq_true hi, Bool.true_and]

theorem rotr_eq_shifts_or (x : Word) {n : Nat} (hn : n < 32) : rotr x n = (x >>> n ||| x <<< (32 - n)) := by
  rw [rotr, BitVec.rotateRight_def, Nat.mod_eq_of_lt hn]

theorem getLsbD_shr (x : Word) (n i : Nat) :
    (shr x n).getLsbD i = (decide (i + n ≤ 31) && x.getLsbD (i + n)) := by
  rw [shr, BitVec.getLsbD_ushiftRight, Nat.add_comm n i]
  by_cases inside : i + n ≤ 31
  · simp [inside]
  · simp [inside, BitVec.getLsbD_of_ge x (i + n) (Nat.lt_of_not_le inside)]

@[simp] theorem toNat_shr (x : Word) (n : Nat) : (shr x n).toNat = x.toNat / 2 ^ n := by
  rw [shr, BitVec.toNat_ushiftRight, Nat.shiftRight_eq_div_pow]

/-- Settles O9: the laws of `rotr` and `shr`. -/
theorem rotateAndShiftMoveBits : Obligations.RotateAndShiftMoveBits :=
  ⟨fun x n _ => getLsbD_rotr x n, fun x _ _ atMost => rotr_eq_shifts_or x (Nat.lt_succ_of_le atMost),
    fun x n i _ => getLsbD_shr x n i, toNat_shr⟩

/-! ### The sigma functions (R69 to R72) -/

/-- The bits of Σ0 and Σ1, which combine three rotations. -/
theorem getLsbD_xor_rotr_rotr_rotr (x : Word) (a b c : Nat) {i : Nat} (hi : i < 32) :
    (rotr x a ^^^ rotr x b ^^^ rotr x c).getLsbD i =
      ((x.getLsbD ((i + a) % 32) ^^ x.getLsbD ((i + b) % 32)) ^^ x.getLsbD ((i + c) % 32)) := by
  simp only [BitVec.getLsbD_xor, getLsbD_rotr x _ hi]

/-- The bits of σ0 and σ1, which combine two rotations and a shift. -/
theorem getLsbD_xor_rotr_rotr_shr (x : Word) (a b c : Nat) {i : Nat} (hi : i < 32) :
    (rotr x a ^^^ rotr x b ^^^ shr x c).getLsbD i =
      ((x.getLsbD ((i + a) % 32) ^^ x.getLsbD ((i + b) % 32)) ^^ (decide (i + c ≤ 31) && x.getLsbD (i + c))) := by
  simp only [BitVec.getLsbD_xor, getLsbD_rotr x _ hi, getLsbD_shr]

/-- Settles O10: each sigma function at its own amounts. -/
theorem sigmaFunctionsCombineTheNamedBits : Obligations.SigmaFunctionsCombineTheNamedBits := fun x _ hi =>
  ⟨getLsbD_xor_rotr_rotr_rotr x 2 13 22 hi, getLsbD_xor_rotr_rotr_rotr x 6 11 25 hi,
    getLsbD_xor_rotr_rotr_shr x 7 18 3 hi, getLsbD_xor_rotr_rotr_shr x 17 19 10 hi⟩

/-! ### Choice and majority (R73, R74) -/

theorem getLsbD_ch (x y z : Word) {i : Nat} (hi : i < 32) :
    (ch x y z).getLsbD i = if x.getLsbD i then y.getLsbD i else z.getLsbD i := by
  simp only [ch, BitVec.getLsbD_xor, BitVec.getLsbD_and, BitVec.getLsbD_not, hi, decide_true, Bool.true_and]
  cases x.getLsbD i <;> simp

theorem getLsbD_maj (x y z : Word) (i : Nat) : (maj x y z).getLsbD i =
    ((x.getLsbD i && y.getLsbD i) ^^ (x.getLsbD i && z.getLsbD i) ^^ (y.getLsbD i && z.getLsbD i)) := by
  simp only [maj, BitVec.getLsbD_xor, BitVec.getLsbD_and]

/-- The exclusive-or of the three pairs is 1 exactly where two of three bits are. -/
theorem xor_pairs_iff_two_le : ∀ a b c : Bool,
    ((a && b) ^^ (a && c) ^^ (b && c)) = true ↔ 2 ≤ a.toNat + b.toNat + c.toNat := by decide

theorem getLsbD_maj_iff (x y z : Word) (i : Nat) : (maj x y z).getLsbD i = true ↔
    2 ≤ (x.getLsbD i).toNat + (y.getLsbD i).toNat + (z.getLsbD i).toNat := by
  rw [getLsbD_maj, xor_pairs_iff_two_le]

theorem maj_swap_left (x y z : Word) : maj x y z = maj y x z := by
  rw [maj, maj, BitVec.and_comm x y, BitVec.xor_assoc, BitVec.xor_assoc, BitVec.xor_comm (x &&& z)]

theorem maj_swap_right (x y z : Word) : maj x y z = maj x z y := by
  rw [maj, maj, BitVec.and_comm y z, BitVec.xor_comm (x &&& y)]

/-- Settles O11: the laws of `ch` and `maj`. -/
theorem chChoosesAndMajIsTheMajority : Obligations.ChChoosesAndMajIsTheMajority :=
  ⟨fun x y z _ => getLsbD_ch x y z, fun x y z i _ => getLsbD_maj_iff x y z i,
    fun x y z => ⟨maj_swap_left x y z, maj_swap_right x y z⟩⟩

end Sys2Proof.Machine

/-! The padder and the parser (42_padding_and_parse.md R81 to R84). PAD_ONE, PAD_ZERO and PAD_LEN are byte pushes, so
`push_of_le_62` and `push_of_63` give their next states; PARSE gathers the block into words with `memRead`. -/

namespace Sys2Proof.Machine

/-! ### The meaning of each micro-operation -/

theorem exec_padOne (s : State) : exec .padOne s = s.push 0x80#8 .padZero seqPadZero := rfl

theorem exec_padZero_of_eq_56 {s : State} (h : s.n = 56#7) : exec .padZero s = .next (s.setSeq (seqPadLen 0#3)) := if_pos h

theorem exec_padZero_of_ne_56 {s : State} (h : s.n ≠ 56#7) : exec .padZero s = s.push 0x00#8 .padZero seqPadZero :=
  if_neg h

theorem exec_padLen (i : BitVec 3) (s : State) :
    exec (.padLen i) s = s.push (lenByte s.len i) .done (if i = 7#3 then s.seq else seqPadLen (i + 1#3)) := rfl

/-- The three writes of PARSE as one record update, whatever the schedule file. -/
theorem State.setSeq_setN_setW (s : State) (w : Vector Word 64) (n : BitVec 7) (c : BitVec 8) :
    ((s.setW w).setN n).setSeq c = { s with w := w, n := n, seq := c } := rfl

theorem exec_parse (s : State) : exec .parse s = .next { s with w := parseWords s.b s.w, n := 0#7, seq := 0x50#8 } :=
  congrArg Host.Outcome.next (s.setSeq_setN_setW (parseWords s.b s.w) 0#7 0x50#8)

/-! ### The one bit and the zero bytes (R81, R82) -/

/-- Settles O26: the two cases of the push of 0x80. -/
theorem padOneAppendsTheOneBit : Obligations.PadOneAppendsTheOneBit :=
  ⟨fun s room => (exec_padOne s).trans (push_of_le_62 s _ _ _ room),
    fun s last => (exec_padOne s).trans (push_of_63 s _ _ _ last)⟩

/-- Settles O27: no push at N = 56, elsewhere the two cases of the push of 0x00. -/
theorem padZeroFillsToByte56 : Obligations.PadZeroFillsToByte56 := by
  refine ⟨fun s at56 => exec_padZero_of_eq_56 at56, fun s room not56 => ?_, fun s last => ?_⟩
  · exact (exec_padZero_of_ne_56 not56).trans (push_of_le_62 s _ _ _ room)
  · have not56 : s.n ≠ 56#7 := by rw [last]; decide
    exact (exec_padZero_of_ne_56 not56).trans (push_of_63 s _ _ _ last)

/-! ### The length (R83) -/

theorem lenByte_eq_setWidth_ushiftRight (len : BitVec 64) (i : BitVec 3) :
    lenByte len i = (len >>> (56 - 8 * i.toNat)).setWidth 8 :=
  BitVec.setWidth_ushiftRight_eq_extractLsb.symm

theorem lenByte_seven (len : BitVec 64) : lenByte len 7#3 = len.setWidth 8 :=
  (BitVec.setWidth_eq_extractLsb' (by decide)).symm

/-- The code of PAD_LEN(i + 1), for the `i` that have a next byte (R52). -/
theorem seqPadLen_succ : ∀ i : BitVec 3, i ≠ 7#3 → seqPadLen (i + 1#3) = 0x11#8 + i.setWidth 8 := by decide

/-- Settles O28: a byte of LEN pushed at B[56 + i], which fills the buffer for the last byte only. -/
theorem padLenAppendsTheLengthBigEndian : Obligations.PadLenAppendsTheLengthBigEndian := by
  refine ⟨fun i s notLast atByte => ?_, fun s last => ?_⟩
  · have ne7 : i ≠ 7#3 := by rintro rfl; exact absurd notLast (by decide)
    rw [exec_padLen, push_of_le_62 s _ _ _ (by omega), if_neg ne7, seqPadLen_succ i ne7, atByte,
      lenByte_eq_setWidth_ushiftRight]
  · rw [exec_padLen, push_of_63 s _ _ _ last, lenByte_seven]
    rfl

/-! ### The words of the block (R84) -/

theorem getElem_parseWords_of_lt_16 (b : Vector Byte 64) (w : Vector Word 64) {t : Nat} (h : t < 16) :
    (parseWords b w)[t] = memRead b (BitVec.ofNat 4 t) := by
  simp [parseWords, h]

theorem getElem_parseWords_of_16_le (b : Vector Byte 64) (w : Vector Word 64) {t : Nat} (h : 16 ≤ t) (ht : t < 64) :
    (parseWords b w)[t] = w[t] := by
  simp [parseWords, Nat.not_lt.mpr h]

theorem toNat_wordIndex (k : BitVec 4) : (k.setWidth 6).toNat = k.toNat := BitVec.toNat_setWidth_of_le (by decide)

/-- The index of byte `j` of word `k` in B does not wrap. -/
theorem toNat_byteIndex (k : BitVec 4) {j : BitVec 6} (hj : j.toNat < 4) :
    (4#6 * k.setWidth 6 + j).toNat = 4 * k.toNat + j.toNat := by
  have hk := k.isLt
  rw [BitVec.toNat_add, BitVec.toNat_mul, toNat_wordIndex, BitVec.toNat_ofNat]
  omega

/-- `MemRead(4k, 4)` with the bytes named by their indices (R31). -/
theorem memRead_eq_bAt (s : State) (k : BitVec 4) : memRead s.b k =
    s.bAt (4#6 * k.setWidth 6) ++ s.bAt (4#6 * k.setWidth 6 + 1#6) ++ s.bAt (4#6 * k.setWidth 6 + 2#6) ++
      s.bAt (4#6 * k.setWidth 6 + 3#6) := by
  have first := toNat_byteIndex k (j := 0#6) (by decide)
  rw [BitVec.add_zero] at first
  simp only [memRead, State.bAt, first, toNat_byteIndex k (j := 1#6) (by decide),
    toNat_byteIndex k (j := 2#6) (by decide), toNat_byteIndex k (j := 3#6) (by decide)]
  rfl

/-- Settles O29: the sixteen words from the block, and the other 48 as they were. -/
theorem parseWritesBigEndianWords : Obligations.ParseWritesBigEndianWords := by
  refine fun s => ⟨_, exec_parse s, fun k => ?_, fun k above => ?_, rfl⟩
  · have inBlock : (k.setWidth 6).toNat < 16 := (toNat_wordIndex k).trans_lt k.isLt
    rw [← memRead_eq_bAt, State.wAt, getElem_parseWords_of_lt_16 _ _ inBlock, toNat_wordIndex, BitVec.ofNat_toNat,
      BitVec.setWidth_eq]
  · exact getElem_parseWords_of_16_le _ _ above k.isLt

end Sys2Proof.Machine

/-! The message schedule expander (43_message_schedule.md R95). The two rows of the opcode table have one meaning,
`State.expand`, so an EXPAND of either row is given by `exec_expandLow` and `exec_expandHigh` through that operation. -/

namespace Sys2Proof.Machine

/-! ### The meaning of the two rows -/

theorem exec_expandLow (t : BitVec 6) (s : State) : exec (.expandLow t) s = s.expand t := rfl

theorem exec_expandHigh (t : BitVec 6) (s : State) : exec (.expandHigh t) s = s.expand t := rfl

/-- Which of the two rows `t` falls in makes no difference to the effect. -/
theorem exec_expand_of_row (t : BitVec 6) (s : State) :
    exec (if t.toNat ≤ 31 then .expandLow t else .expandHigh t) s = s.expand t := by
  split
  · exact exec_expandLow t s
  · exact exec_expandHigh t s

/-- An index in EXPAND's range answers; the converse of `expand_next`. -/
theorem expand_of_16_le (s : State) {t : BitVec 6} (h : 16 ≤ t.toNat) : s.expand t = .next
    ((s.writeW t (expandWord s.w t)).setSeq (if t = 63#6 then seqLoadv else seqExpand (t + 1#6))) :=
  if_neg (Nat.not_lt.mpr h)

/-! ### The word written and the successor -/

/-- The four taps, with the words of W named by their indices. -/
theorem expandWord_eq_wAt (s : State) (t : BitVec 6) : expandWord s.w t =
    ssig1 (s.wAt (t - 2#6)) + s.wAt (t - 7#6) + ssig0 (s.wAt (t - 15#6)) + s.wAt (t - 16#6) := rfl

/-- The write of a schedule word, as one record update. -/
theorem State.writeW_eq_setIfInBounds (s : State) (t : BitVec 6) (x : Word) :
    s.writeW t x = { s with w := s.w.setIfInBounds t.toNat x } := by
  have inFile : t.toNat < 64 := t.isLt
  simp [State.writeW, State.setW, Vector.set, Vector.setIfInBounds, Array.setIfInBounds, inFile]

/-- Every EXPAND but the last goes to the next one, and EXPAND(63) goes to LOADV. -/
theorem expand_successor : ∀ t : BitVec 6, (if t = 63#6 then seqLoadv else seqExpand (t + 1#6)) =
    if t.toNat < 63 then 0x41#8 + t.setWidth 8 else 0x05#8 := by decide

/-- Settles O31: both rows run `State.expand`, whose word and successor are the ones stated. -/
theorem expandWritesOneScheduleWord : Obligations.ExpandWritesOneScheduleWord := by
  intro t s inRange
  rw [exec_expand_of_row, expand_of_16_le s inRange, expand_successor, expandWord_eq_wAt,
    State.writeW_eq_setIfInBounds]
  rfl

end Sys2Proof.Machine

/-! The compression function (44_compression.md R100 to R102). Each of LOADV, ROUND and FEEDFWD is one record update;
its new words are named by their indices in `roundStep_eq_vAt` and `State.hAt_addWords`. -/

namespace Sys2Proof.Machine

/-! ### The meaning of each micro-operation -/

theorem exec_loadv (s : State) : exec .loadv s = .next { s with v := s.h, seq := seqRound 0#6 } := rfl

theorem exec_round (t : BitVec 6) (s : State) : exec (.round t) s = .next
    { s with v := roundStep s.v (kAt t) (s.wAt t), seq := if t = 63#6 then seqFeedfwd else seqRound (t + 1#6) } := rfl

theorem exec_feedfwd (s : State) : exec .feedfwd s = .next { s with h := addWords s.h s.v, seq := s.ret.code } := rfl

/-! ### The working variables (R100, R101) -/

/-- The code of ROUND(0) (R52). -/
theorem seqRound_zero : seqRound 0#6 = 0x80#8 := by decide

/-- Settles O32: H into V, then ROUND(0). -/
theorem loadvCopiesTheHashState : Obligations.LoadvCopiesTheHashState := fun s => by
  rw [exec_loadv, seqRound_zero]

theorem roundT1_eq_vAt (s : State) (k x : Word) : roundT1 s.v k x =
    s.vAt 7#3 + bsig1 (s.vAt 4#3) + ch (s.vAt 4#3) (s.vAt 5#3) (s.vAt 6#3) + k + x := rfl

theorem roundT2_eq_vAt (s : State) :
    roundT2 s.v = bsig0 (s.vAt 0#3) + maj (s.vAt 0#3) (s.vAt 1#3) (s.vAt 2#3) := rfl

/-- The eight writes, with the words of V named by their indices. -/
theorem roundStep_eq_vAt (s : State) (k x : Word) : roundStep s.v k x =
    #v[roundT1 s.v k x + roundT2 s.v, s.vAt 0#3, s.vAt 1#3, s.vAt 2#3, s.vAt 3#3 + roundT1 s.v k x, s.vAt 4#3,
      s.vAt 5#3, s.vAt 6#3] := rfl

/-- Every ROUND but the last goes to the next one, and ROUND(63) goes to FEEDFWD. -/
theorem round_successor : ∀ t : BitVec 6, (if t = 63#6 then seqFeedfwd else seqRound (t + 1#6)) =
    if t.toNat < 63 then 0x81#8 + t.setWidth 8 else 0x06#8 := by decide

/-- Settles O33: T1 and T2 are read off V before the round, and so are the eight words written. -/
theorem roundShiftsTheWorkingVariables : Obligations.RoundShiftsTheWorkingVariables := by
  intro t s t1 t2 sum1 sum2
  rw [← roundT1_eq_vAt] at sum1
  rw [← roundT2_eq_vAt] at sum2
  rw [exec_round, round_successor, roundStep_eq_vAt, sum1, sum2]

/-! ### The feed-forward (R102) -/

@[simp] theorem getElem_addWords (x y : Vector Word 8) {i : Nat} (hi : i < 8) : (addWords x y)[i] = x[i] + y[i] :=
  Vector.getElem_ofFn hi

/-- Each word of H after the addition, whatever becomes of SEQ. -/
theorem State.hAt_addWords (s : State) (c : BitVec 8) (i : BitVec 3) :
    ({ s with h := addWords s.h s.v, seq := c } : State).hAt i = s.hAt i + s.vAt i :=
  getElem_addWords s.h s.v i.isLt

/-- Settles O34: the eight additions, and for SEQ the code `Ret.code` gives each value of RET. -/
theorem feedfwdAddsIntoTheHashState : Obligations.FeedfwdAddsIntoTheHashState := fun s =>
  ⟨_, exec_feedfwd s, s.hAt_addWords s.ret.code, rfl⟩

end Sys2Proof.Machine

/-! SEQ transitions (45_driver_commands.md R118). Three parts: the codes of the micro-operations, read back from the decoder;
one row of the table for each micro-operation and for each command that moves SEQ; and which of the two a step runs. -/

namespace Sys2Proof

/-- A code that decodes is the encoding of what it stands for (R52): one evaluation for each of the 256 codes. -/
theorem encode_of_decodeSeq : ∀ c : BitVec 8, ∀ i ∈ (decodeSeq c).toOption, encode i = .seq8 c := by decide

theorem encode_of_decodeSeq_eq_ok {c : BitVec 8} {i : Instr} (h : decodeSeq c = .ok i) : encode i = .seq8 c :=
  encode_of_decodeSeq c i (by rw [h]; rfl)

end Sys2Proof

namespace Sys2Proof.Machine

/-! ### The host's move and the held command -/

/-- The host's move changes no register, so none the invariant looks at. -/
theorem takeInput_inv (s : State) : s.takeInput.inv = s.inv := by
  rcases takeInput_cases s with h | ⟨_, _, h⟩ | ⟨_, _, _, _, h⟩ <;> rw [h] <;> rfl

theorem hostTransition_takeInput {s t : State} {i : Instr} : s.takeInput.hostTransition i t ↔ s.hostTransition i t := by
  rcases takeInput_cases s with h | ⟨_, _, h⟩ | ⟨_, _, _, _, h⟩ <;> rw [h] <;> rfl

theorem engineTransition_takeInput {s t : State} : s.takeInput.engineTransition t ↔ s.engineTransition t := by
  rcases takeInput_cases s with h | ⟨_, _, h⟩ | ⟨_, _, _, _, h⟩ <;> rw [h] <;> rfl

theorem waits_iff {w : Nat} : waits w = true ↔ ∃ i, decodeCommand w = .ok i ∧ i ≠ .rdstat := by
  unfold waits
  split <;> simp [*]

theorem quiet_iff {s : State} : s.quiet = true ↔ s.inputs = [] ∧ ∀ w, s.port = some w → waits w = true := by
  unfold State.quiet
  split <;> simp [*]

/-- Undisturbed, a busy engine takes its own step: a command on the port is held (R110 test 3, R153). -/
theorem step_of_quiet {s : State} (busy : s.isBusy = true) (quiet : s.quiet = true) : step s = engineStep s := by
  obtain ⟨noInputs, held⟩ := quiet_iff.mp quiet
  obtain ⟨notRest, defined⟩ : s.isRest = false ∧ s.isReserved = false := by simpa [State.isBusy] using busy
  rw [step_of_no_inputs noInputs, advance, if_neg (by simp [defined])]
  split
  next => rfl
  next w onPort =>
    obtain ⟨i, legal, notRdstat⟩ := waits_iff.mp (held w onPort)
    simp [legal, State.decidesNow, notRdstat, notRest]

/-! ### The engine's rows -/

section
variable {s t : State}

/-- PAD_LEN(i) is entered with `N = 56 + i` (10_state.md R26). -/
theorem n_of_inv_of_padLen {i : BitVec 3} (inv : s.inv = true) (code : decodeSeq s.seq = .ok (.padLen i)) :
    s.n.toNat = 56 + i.toNat := by
  simp only [State.inv, State.phaseInv, code, Bool.and_eq_true, decide_eq_true_eq] at inv
  exact inv.2.1

theorem engineTransition_of_padOne (code : s.seq = seqPadOne) (h : exec .padOne s = .next t) : s.engineTransition t := by
  rw [exec_padOne] at h
  obtain ⟨room, ⟨full, rfl⟩ | ⟨notFull, rfl⟩⟩ := push_next h
  · simp [State.engineTransition, code, full]
  · have : s.n.toNat ≤ 62 := by bv_omega
    simp [State.engineTransition, code, this]

theorem engineTransition_of_padZero (code : s.seq = seqPadZero) (h : exec .padZero s = .next t) : s.engineTransition t := by
  by_cases at56 : s.n = 56#7
  · rw [exec_padZero_of_eq_56 at56] at h
    cases h
    simp [State.engineTransition, code, at56]
  · rw [exec_padZero_of_ne_56 at56] at h
    obtain ⟨room, ⟨full, rfl⟩ | ⟨notFull, rfl⟩⟩ := push_next h
    · simp [State.engineTransition, code, full]
    · have : s.n.toNat ≤ 62 := by bv_omega
      simp [State.engineTransition, code, at56, this]

theorem engineTransition_of_padLen {i : BitVec 3} (code : s.seq = seqPadLen i) (atByte : s.n.toNat = 56 + i.toNat)
    (h : exec (.padLen i) s = .next t) : s.engineTransition t := by
  rw [exec_padLen] at h
  obtain ⟨room, ⟨full, rfl⟩ | ⟨notFull, rfl⟩⟩ := push_next h
  · obtain rfl : i = 7#3 := by bv_omega
    simp [State.engineTransition, code]
  · have notLast : i.toNat ≤ 6 := by bv_omega
    have ne7 : i ≠ 7#3 := by bv_omega
    have row : ∃ k : BitVec 3, k.toNat ≤ 6 ∧ s.seq = seqPadLen k ∧ seqPadLen (i + 1#3) = seqPadLen (k + 1#3) :=
      ⟨i, notLast, code, rfl⟩
    simp only [State.engineTransition, State.setSeq_seq, if_neg ne7, row, true_or, or_true]

theorem engineTransition_of_parse (code : s.seq = seqParse) (h : exec .parse s = .next t) : s.engineTransition t := by
  rw [exec_parse] at h
  cases h
  simp [State.engineTransition, code, seqExpand]

theorem engineTransition_of_expand {k : BitVec 6} (code : s.seq = seqExpand k) (h : s.expand k = .next t) :
    s.engineTransition t := by
  obtain ⟨inRange, rfl⟩ := expand_next h
  by_cases last : k = 63#6
  · subst last
    simp [State.engineTransition, code]
  · have row : ∃ j : BitVec 6, 16 ≤ j.toNat ∧ j.toNat ≤ 62 ∧ s.seq = seqExpand j ∧
        seqExpand (k + 1#6) = seqExpand (j + 1#6) := ⟨k, inRange, by bv_omega, code, rfl⟩
    simp only [State.engineTransition, State.setSeq_seq, if_neg last, row, true_or, or_true]

theorem engineTransition_of_loadv (code : s.seq = seqLoadv) (h : exec .loadv s = .next t) : s.engineTransition t := by
  rw [exec_loadv] at h
  cases h
  simp [State.engineTransition, code]

theorem engineTransition_of_round {k : BitVec 6} (code : s.seq = seqRound k) (h : exec (.round k) s = .next t) :
    s.engineTransition t := by
  rw [exec_round] at h
  cases h
  by_cases last : k = 63#6
  · subst last
    simp [State.engineTransition, code]
  · have row : ∃ j : BitVec 6, j.toNat ≤ 62 ∧ s.seq = seqRound j ∧ seqRound (k + 1#6) = seqRound (j + 1#6) :=
      ⟨k, by bv_omega, code, rfl⟩
    simp only [State.engineTransition, if_neg last, row, true_or, or_true]

theorem engineTransition_of_feedfwd (code : s.seq = seqFeedfwd) (h : exec .feedfwd s = .next t) : s.engineTransition t := by
  rw [exec_feedfwd] at h
  cases h
  cases ret : s.ret <;> simp [State.engineTransition, code, ret, Ret.code]

/-- The engine's step from a state of the invariant: it waits at a rest code, and at a busy code it is a row (R117, R118). -/
theorem engineStep_row (inv : s.inv = true) (h : engineStep s = .next t) :
    (s.isRest = true ∧ t = s) ∨ s.engineTransition t := by
  obtain ⟨i, decoded, run⟩ := engineStep_next h
  have code : encode i = .seq8 s.seq := encode_of_decodeSeq_eq_ok decoded
  have own {c : BitVec 8} (e : CodeWord.seq8 c = .seq8 s.seq) : s.seq = c := (CodeWord.seq8.inj e).symm
  cases i
  case init | absorb | final | rdh | rdstat => cases code
  case idle | accept | done | err =>
    cases run
    exact .inl ⟨(isRest_iff s).mpr (by simp [own code]), rfl⟩
  case parse => exact .inr (engineTransition_of_parse (own code) run)
  case loadv => exact .inr (engineTransition_of_loadv (own code) run)
  case feedfwd => exact .inr (engineTransition_of_feedfwd (own code) run)
  case padOne => exact .inr (engineTransition_of_padOne (own code) run)
  case padZero => exact .inr (engineTransition_of_padZero (own code) run)
  case padLen => exact .inr (engineTransition_of_padLen (own code) (n_of_inv_of_padLen inv decoded) run)
  case expandLow | expandHigh => exact .inr (engineTransition_of_expand (own code) run)
  case round => exact .inr (engineTransition_of_round (own code) run)

/-! ### The commands' rows -/

theorem isRest_of_not_isBusy (defined : s.isReserved = false) (notBusy : s.isBusy = false) : s.isRest = true := by
  simpa [State.isBusy, defined] using notBusy

theorem hostTransition_of_init (h : exec .init s = .next t) (moved : t.seq ≠ s.seq) : s.hostTransition .init t := by
  obtain ⟨defined, ⟨-, rfl⟩ | ⟨notBusy, opened⟩⟩ := whenAtRest_next h
  · simp at moved
  · cases opened
    simp [State.hostTransition, isRest_of_not_isBusy defined notBusy]

/-- A command that needs a phase changes SEQ only by its own rule, in that phase: a held one leaves SEQ, BAD_PHASE too, and
TOO_LARGE in ERR finds it there (R110, R133). -/
theorem performed_of_moved {c : CodeWord} {phase : BitVec 8} {perform : Result} (h : whenInPhase c phase perform s = .next t)
    (moved : t.seq ≠ s.seq) : s.seq = phase ∧ perform = .next t := by
  obtain ⟨-, ⟨-, rfl⟩ | ⟨-, ended, rfl⟩ | ⟨-, -, inPhase, performed⟩ | ⟨-, -, -, rfl⟩⟩ := whenInPhase_next h
  · simp at moved
  · simp [ended] at moved
  · exact ⟨inPhase, performed⟩
  · simp at moved

theorem hostTransition_of_absorb {bb : Byte} (h : exec (.absorb bb) s = .next t) (moved : t.seq ≠ s.seq) :
    s.hostTransition (.absorb bb) t := by
  obtain ⟨phase, performed⟩ := performed_of_moved h moved
  split at performed
  next limit =>
    cases performed
    simp [State.hostTransition, phase, limit]
  next below =>
    obtain ⟨-, ⟨full, rfl⟩ | ⟨-, rfl⟩⟩ := push_next performed
    · have full : s.n = 63#7 := by simpa using full
      simp [State.hostTransition, phase, below, full]
    · simp [phase] at moved

theorem hostTransition_of_final (h : exec .final s = .next t) (moved : t.seq ≠ s.seq) : s.hostTransition .final t := by
  obtain ⟨phase, performed⟩ := performed_of_moved h moved
  cases performed
  simp [State.hostTransition, phase]

theorem rdh_keeps_seq {k : BitVec 3} (h : exec (.rdh k) s = .next t) : t.seq = s.seq := by
  by_contra moved
  obtain ⟨-, performed⟩ := performed_of_moved h moved
  cases performed
  simp at moved

/-- A command that changes SEQ does so by its row of the table (R118). -/
theorem command_row {w : Nat} {i : Instr} (legal : decodeCommand w = .ok i) (h : exec i s = .next t)
    (moved : t.seq ≠ s.seq) : s.hostTransition i t := by
  obtain ⟨v, word, -⟩ := decodeCommand_eq_ok_iff.mp legal
  cases i
  case init => exact hostTransition_of_init h moved
  case absorb => exact hostTransition_of_absorb h moved
  case final => exact hostTransition_of_final h moved
  case rdh => exact absurd (rdh_keeps_seq h) moved
  case rdstat =>
    cases h
    simp at moved
  all_goals cases word

/-! ### The step -/

/-- The step of host or engine that changes SEQ is a row of the table (R118). -/
theorem advance_row (inv : s.inv = true) (h : advance s = .next t) (moved : t.seq ≠ s.seq) :
    (∃ w i, s.port = some w ∧ decodeCommand w = .ok i ∧ s.hostTransition i t) ∨ s.engineTransition t := by
  obtain ⟨-, ⟨_, _, -, -, rfl⟩ | ⟨w, i, onPort, legal, -, run⟩ | ⟨i, decoded, run, -⟩⟩ := advance_next h
  · simp at moved
  · exact .inl ⟨w, i, onPort, legal, command_row legal run moved⟩
  · have own : engineStep s = .next t := by rw [engineStep, decoded]; exact run
    obtain ⟨-, rfl⟩ | row := engineStep_row inv own
    · exact absurd rfl moved
    · exact .inr row

end

/-- Settles O48: a reset goes to IDLE, a poll leaves SEQ, and any other step is a row of the state after the host's move. -/
theorem sequencerFollowsTheTransitionTable : Obligations.SequencerFollowsTheTransitionTable := by
  refine ⟨fun s t inv h moved => ?_, fun s t inv busy quiet h => ?_⟩
  · obtain ⟨rest, reset, rfl⟩ | ⟨_, -, -, rfl⟩ | ⟨-, -, adv⟩ := step_next h
    · exact .inl ⟨rest, reset, rfl⟩
    · simp at moved
    · rw [← takeInput_inv] at inv
      obtain ⟨w, i, onPort, legal, row⟩ | row := advance_row inv adv (by rwa [takeInput_seq])
      · exact .inr (.inl ⟨w, i, onPort, legal, hostTransition_takeInput.mp row⟩)
      · exact .inr (.inr (engineTransition_takeInput.mp row))
  · rw [step_of_quiet busy quiet] at h
    obtain ⟨atRest, -⟩ | row := engineStep_row inv h
    · simp [isBusy_of_isRest atRest] at busy
    · exact row

end Sys2Proof.Machine

/-! Host commands decided at a rest code (45_driver_commands.md R112 to R116). In the phase it needs a command is its own rule
(`whenInPhase_of_phase`); in any other it is an answer that changes no register (`whenInPhase_of_err`,
`whenInPhase_of_other_phase`). -/

namespace Sys2Proof.Machine

/-! ### The phase tests, by the rest code in SEQ (R110) -/

theorem State.isRest_of_seq {s : State} {code : BitVec 8} (h : s.seq = code) (rest : code.toNat ≤ 3) : s.isRest = true := by
  rw [State.isRest, h, decide_eq_true rest]

theorem State.setSeq_of_eq {s : State} {code : BitVec 8} (h : s.seq = code) : s.setSeq code = s := by
  subst h
  rfl

section
variable {s : State} {phase : BitVec 8} (c : CodeWord) (perform : Result)

theorem whenInPhase_of_phase (h : s.seq = phase) (rest : phase.toNat ≤ 3) (notErr : phase ≠ seqErr) :
    whenInPhase c phase perform s = perform := by
  rw [whenInPhase, whenAtRest_of_isRest c _ (State.isRest_of_seq h rest), h, if_neg notErr, if_pos rfl]

/-- A later TOO_LARGE changes nothing, SEQ being ERR already (R133). -/
theorem whenInPhase_of_err (h : s.seq = seqErr) :
    whenInPhase c phase perform s = .next (s.respond .tooLarge 0#32) := by
  have unchanged : s.raise .tooLarge = s.respond .tooLarge 0#32 := State.setSeq_of_eq h
  rw [whenInPhase, whenAtRest_of_isRest c _ (State.isRest_of_seq h (by decide)), if_pos h, unchanged]

theorem whenInPhase_of_other_phase {code : BitVec 8} (h : s.seq = code) (rest : code.toNat ≤ 3) (notErr : code ≠ seqErr)
    (other : code ≠ phase) : whenInPhase c phase perform s = .next (s.respond .badPhase 0#32) := by
  rw [whenInPhase, whenAtRest_of_isRest c _ (State.isRest_of_seq h rest), h, if_neg notErr, if_neg other, State.raise]

/-- A command that needs ACCEPT, in IDLE or DONE (R132). -/
theorem whenInPhase_accept_of_idle_or_done (h : s.seq = 0x00#8 ∨ s.seq = 0x02#8) :
    whenInPhase c seqAccept perform s = .next (s.respond .badPhase 0#32) := by
  rcases h with idle | done
  · exact whenInPhase_of_other_phase c perform idle (by decide) (by decide) (by decide)
  · exact whenInPhase_of_other_phase c perform done (by decide) (by decide) (by decide)

/-- A command that needs DONE, in IDLE or ACCEPT (R132). -/
theorem whenInPhase_done_of_idle_or_accept (h : s.seq = 0x00#8 ∨ s.seq = 0x01#8) :
    whenInPhase c seqDone perform s = .next (s.respond .badPhase 0#32) := by
  rcases h with idle | accept
  · exact whenInPhase_of_other_phase c perform idle (by decide) (by decide) (by decide)
  · exact whenInPhase_of_other_phase c perform accept (by decide) (by decide) (by decide)

end

/-! ### INIT (R112) -/

theorem exec_init_of_isRest {s : State} (rest : s.isRest = true) : exec .init s = .next
    { s with h := ivRom, n := 0#7, len := 0#64, ret := .accept, seq := seqAccept, port := none,
             responses := s.responses ++ [⟨.ok, 0#32⟩] } :=
  whenAtRest_of_isRest _ _ rest

/-- Settles O13: at a rest code INIT passes test 3 and is never tested for its phase; the words of H are the IV ROM. -/
theorem initOpensASession : Obligations.InitOpensASession := fun _ => exec_init_of_isRest

/-! ### ABSORB (R113) -/

/-- ABSORB in ACCEPT: the limit of the length, else the push of the byte. -/
theorem exec_absorb_of_accept {bb : Byte} {s : State} (phase : s.seq = 0x01#8) : exec (.absorb bb) s =
    if s.len = lenMax then .next (s.raise .tooLarge)
    else ((s.setLen (s.len + 8#64)).respond .ok 0#32).push bb .accept seqAccept :=
  whenInPhase_of_phase _ _ phase (by decide) (by decide)

theorem exec_absorb_at_limit {bb : Byte} {s : State} (phase : s.seq = 0x01#8) (limit : s.len = lenMax) :
    exec (.absorb bb) s = .next (s.raise .tooLarge) :=
  (exec_absorb_of_accept phase).trans (if_pos limit)

theorem exec_absorb_below_limit {bb : Byte} {s : State} (phase : s.seq = 0x01#8) (below : s.len ≠ lenMax) :
    exec (.absorb bb) s = ((s.setLen (s.len + 8#64)).respond .ok 0#32).push bb .accept seqAccept :=
  (exec_absorb_of_accept phase).trans (if_neg below)

/-- A push that does not fill the buffer and continues at the code in SEQ leaves SEQ (R80). -/
theorem push_of_le_62_of_seq {s : State} {x : Byte} {r : Ret} {c : BitVec 8} (room : s.n.toNat ≤ 62) (h : s.seq = c) :
    s.push x r c = .next { s with b := s.b.setIfInBounds s.n.toNat x, n := s.n + 1#7 } := by
  subst h
  exact push_of_le_62 s x r s.seq room

/-- Settles O14: in ACCEPT the limit and the two cases of a push; elsewhere the phase tests. -/
theorem absorbAppendsOneByte : Obligations.AbsorbAppendsOneByte :=
  ⟨fun _ _ phase limit => exec_absorb_at_limit phase limit,
    fun _ _ phase below room => (exec_absorb_below_limit phase below).trans (push_of_le_62_of_seq room phase),
    fun bb _ phase below last => (exec_absorb_below_limit phase below).trans (push_of_63 _ bb .accept seqAccept last),
    fun _ _ phase => whenInPhase_accept_of_idle_or_done _ _ phase, fun _ _ phase => whenInPhase_of_err _ _ phase⟩

/-! ### FINAL (R114) -/

/-- Settles O15: its own rule in ACCEPT, the phase tests elsewhere. -/
theorem finalStartsThePadder : Obligations.FinalStartsThePadder :=
  ⟨fun _ phase => whenInPhase_of_phase _ _ phase (by decide) (by decide),
    fun _ phase => whenInPhase_accept_of_idle_or_done _ _ phase, fun _ phase => whenInPhase_of_err _ _ phase⟩

/-! ### RDH (R115) -/

/-- The words of OP = 4 with IDX = 8 to 15 are no RDH (R49). -/
theorem decodeCommand_rdh_index_out_of_range : ∀ i : BitVec 4, 8 ≤ i.toNat →
    decodeCommand (0x4000 + 0x100 * i.toNat) = .error .indexOutOfRange := by decide

/-- Settles O16: its own rule in DONE, the phase tests elsewhere, and the decoder on the words that are no RDH. -/
theorem rdhReturnsADigestWord : Obligations.RdhReturnsADigestWord :=
  ⟨fun _ _ phase => whenInPhase_of_phase _ _ phase (by decide) (by decide),
    fun _ _ phase => whenInPhase_done_of_idle_or_accept _ _ phase, fun _ _ phase => whenInPhase_of_err _ _ phase,
    decodeCommand_rdh_index_out_of_range⟩

/-! ### RDSTAT (R116) -/

theorem exec_rdstat (s : State) : exec .rdstat s = .next
    { s with port := none, responses := s.responses ++ [⟨.ok, s.statusWord⟩] } := rfl

theorem decodeCommand_rdstat : decodeCommand 0x5000 = .ok .rdstat := by decide

/-- A command on the port that is decided now is the step of host or engine (R110). -/
theorem advance_of_decidesNow {s : State} {w : Nat} {i : Instr} (defined : s.isReserved = false) (onPort : s.port = some w)
    (legal : decodeCommand w = .ok i) (now : s.decidesNow i = true) : advance s = exec i s := by
  simp [advance, defined, onPort, legal, now]

/-- RDSTAT is decided whatever SEQ is (R110 test 2). -/
theorem decidesNow_rdstat (s : State) : s.decidesNow .rdstat = true := rfl

/-- Settles O17: RDSTAT looks at no phase, and a step decides it at every defined code. -/
theorem rdstatAnswersStatusAtOnce : Obligations.RdstatAnswersStatusAtOnce := by
  refine ⟨exec_rdstat, fun s defined noInputs onPort => ?_⟩
  rw [step_of_no_inputs noInputs, advance_of_decidesNow defined onPort decodeCommand_rdstat (decidesNow_rdstat s),
    exec_rdstat]

end Sys2Proof.Machine

/-! Rejections (60_exceptions.md R131 to R133). ILLEGAL_CMD is a matter of the step, before any instruction is run
(`advance_of_illegal_word`). BAD_PHASE and TOO_LARGE are outcomes of the commands that need a phase; in ERR these have one
outcome for all of them (`exec_of_err`). -/

namespace Sys2Proof.Machine

/-! ### ILLEGAL_CMD (R131) -/

/-- A command presented at a free port is on the port in the same step (R110). -/
theorem step_of_command_presented {s : State} {w : Nat} {rest : List HostEvent} (next : s.inputs = .command w :: rest)
    (free : s.port = none) : step s = advance ((s.setInputs rest).setPort (some w)) := by
  simp [step, machineStep, State.takeInput, next, free]

/-- The decoder's refusal is answered before SEQ is asked for anything but a defined code. -/
theorem advance_of_illegal_word {s : State} {w : Nat} {e : DecodeError} (defined : s.isReserved = false)
    (onPort : s.port = some w) (illegal : decodeCommand w = .error e) : advance s = .next (s.raise .illegalCmd) := by
  simp [advance, defined, onPort, illegal]

/-- The rejection clears the port again, which leaves it as free as it was before the word. -/
theorem step_of_illegal_word_presented {s : State} {w : Nat} {e : DecodeError} {rest : List HostEvent}
    (defined : s.isReserved = false) (illegal : decodeCommand w = .error e) (next : s.inputs = .command w :: rest)
    (free : s.port = none) :
    step s = .next { s with inputs := rest, responses := s.responses ++ [⟨.illegalCmd, 0#32⟩] } := calc
  step s = advance ((s.setInputs rest).setPort (some w)) := step_of_command_presented next free
  _ = .next ((s.setInputs rest).respond .illegalCmd 0#32) := advance_of_illegal_word defined rfl illegal
  _ = _ := by rw [State.respond, State.log, State.setPort, State.setInputs, free]

/-- Settles O23: the two ways the word can be on the port when the step looks at it. -/
theorem illegalWordIsRejectedAtOnce : Obligations.IllegalWordIsRejectedAtOnce :=
  ⟨fun _ _ _ defined illegal noInputs onPort => step_of_illegal_word defined noInputs onPort illegal,
    fun _ _ _ _ => step_of_illegal_word_presented⟩

/-! ### BAD_PHASE (R132) and TOO_LARGE (R133) -/

/-- The commands that need a phase have one answer in ERR, whatever phase each of them needs. -/
theorem exec_of_err {i : Instr} {s : State} (command : (∃ bb, i = .absorb bb) ∨ i = .final ∨ ∃ k, i = .rdh k)
    (phase : s.seq = 0x03#8) : exec i s = .next (s.respond .tooLarge 0#32) := by
  rcases command with ⟨bb, rfl⟩ | rfl | ⟨k, rfl⟩ <;> exact whenInPhase_of_err _ _ phase

/-- ABSORB and FINAL need ACCEPT, RDH needs DONE. -/
theorem exec_of_wrong_phase {i : Instr} {s : State}
    (wrong : (((∃ bb, i = .absorb bb) ∨ i = .final) ∧ (s.seq = 0x00#8 ∨ s.seq = 0x02#8)) ∨
      ((∃ k, i = .rdh k) ∧ (s.seq = 0x00#8 ∨ s.seq = 0x01#8))) : exec i s = .next (s.respond .badPhase 0#32) := by
  obtain ⟨⟨bb, rfl⟩ | rfl, phase⟩ | ⟨⟨k, rfl⟩, phase⟩ := wrong
  · exact whenInPhase_accept_of_idle_or_done _ _ phase
  · exact whenInPhase_accept_of_idle_or_done _ _ phase
  · exact whenInPhase_done_of_idle_or_accept _ _ phase

/-- Settles O24: the phases outside ERR, and the one answer there. -/
theorem wrongPhaseIsRejectedWithoutEffect : Obligations.WrongPhaseIsRejectedWithoutEffect :=
  fun _ _ => ⟨exec_of_wrong_phase, fun command phase => ⟨_, 0#32, exec_of_err command phase, rfl⟩⟩

/-- Settles O25: the limit of the length in ACCEPT, and the one answer in ERR. -/
theorem tooLargeEndsTheSession : Obligations.TooLargeEndsTheSession :=
  ⟨fun _ _ phase limit => exec_absorb_at_limit phase limit, fun _ _ => exec_of_err⟩

end Sys2Proof.Machine

/-! The reset event (70_reset_and_hazards.md R150). It leaves every state in IDLE with an empty buffer, and these two values
alone decide what STATUS reads and which commands are rejected (`statusWord_of_idle`, `answers_of_idle`). -/

namespace Sys2Proof.Machine

theorem answers_of_respond {s : State} {r : Result} {c : Code} {d : Word} (h : r = .next (s.respond c d)) : Answers s r c :=
  ⟨_, d, h, rfl⟩

/-- In IDLE with an empty buffer STATUS has READY and no other bit (R19). -/
theorem statusWord_of_idle {s : State} (idle : s.seq = 0x00#8) (empty : s.n = 0#7) : s.statusWord = 0x00000001#32 := calc
  s.statusWord = State.reset.statusWord := State.statusWord_congr idle empty
  _ = 0x00000001#32 := by decide

/-- In IDLE there is no session: a command that needs a phase is rejected, INIT and RDSTAT need none (R111). -/
theorem answers_of_idle {s : State} (idle : s.seq = 0x00#8) (bb : Byte) (i : BitVec 3) :
    Answers s (exec .init s) .ok ∧ Answers s (exec .rdstat s) .ok ∧ Answers s (exec (.absorb bb) s) .badPhase ∧
      Answers s (exec .final s) .badPhase ∧ Answers s (exec (.rdh i) s) .badPhase :=
  ⟨⟨_, 0#32, exec_init_of_isRest (State.isRest_of_seq idle (by decide)), rfl⟩,
    answers_of_respond (exec_rdstat s),
    answers_of_respond (exec_of_wrong_phase (.inl ⟨.inl ⟨bb, rfl⟩, .inl idle⟩)),
    answers_of_respond (exec_of_wrong_phase (.inl ⟨.inr rfl, .inl idle⟩)),
    answers_of_respond (exec_of_wrong_phase (.inr ⟨⟨i, rfl⟩, .inl idle⟩))⟩

/-- The reset event comes before everything else a step looks at, a reserved SEQ included (R53). -/
theorem step_of_reset {s : State} {rest : List HostEvent} (next : s.inputs = .reset :: rest) :
    step s = .next (s.setInputs rest).resetEvent := by
  simp only [step, machineStep, next]

/-- Settles O44: the step is the reset event, whose fields are the reset values; the rest follows from IDLE. -/
theorem resetEventFromAnyState : Obligations.ResetEventFromAnyState := by
  intro s rest bb i next
  let t := (s.setInputs rest).resetEvent
  have idle : t.seq = 0x00#8 := State.resetEvent_seq _
  have empty : t.n = 0#7 := State.resetEvent_n _
  exact ⟨t, step_of_reset next, idle, State.resetEvent_ret _, empty, State.resetEvent_len _, State.resetEvent_port _,
    State.resetEvent_responses _, State.resetEvent_inputs _, statusWord_of_idle idle empty, answers_of_idle idle bb i⟩

end Sys2Proof.Machine

/-! Decoding and encoding are inverse (30_encoding.md R45 to R54), for both formats: the commands by `decodeCmd16_eq_ok_iff`,
the sequencer codes by the code of each constructor. -/

namespace Sys2Proof

/-! ### Sequencer codes -/

@[simp] theorem decodeSeq_seqPadLen : ∀ i : BitVec 3, decodeSeq (seqPadLen i) = .ok (.padLen i) := by decide

theorem decodeSeq_seqExpand_low : ∀ t : BitVec 6, 16 ≤ t.toNat → t.toNat ≤ 31 →
    decodeSeq (seqExpand t) = .ok (.expandLow t) := by decide

theorem decodeSeq_seqExpand_high : ∀ t : BitVec 6, 32 ≤ t.toNat → decodeSeq (seqExpand t) = .ok (.expandHigh t) := by
  decide

@[simp] theorem decodeSeq_seqRound : ∀ t : BitVec 6, decodeSeq (seqRound t) = .ok (.round t) := by decide

/-- The code of a well-formed micro-operation or rest code decodes to it (R52). -/
theorem decodeSeq_of_encode {c : BitVec 8} {i : Instr} (wf : i.wellFormed = true) (h : encode i = .seq8 c) :
    decodeSeq c = .ok i := by
  cases i
  case init | absorb | final | rdh | rdstat => cases h
  all_goals obtain rfl := CodeWord.seq8.inj h
  case padLen i => exact decodeSeq_seqPadLen i
  case round t => exact decodeSeq_seqRound t
  case expandLow t =>
    obtain ⟨low, high⟩ := of_decide_eq_true wf
    exact decodeSeq_seqExpand_low t low high
  case expandHigh t => exact decodeSeq_seqExpand_high t (of_decide_eq_true wf)
  all_goals decide

/-- Settles O1: a command's word decodes by `decodeCmd16_of_encode`, a code by `decodeSeq_of_encode`. -/
theorem decodeOfEncodeIsTheInstruction : Obligations.DecodeOfEncodeIsTheInstruction := by
  intro i wf
  cases code : encode i with
  | cmd16 w => exact decodeCmd16_of_encode code
  | seq8 c => exact decodeSeq_of_encode wf code

/-- What a sequencer code stands for has an operand its row allows: one evaluation for each of the 256 codes. -/
theorem wellFormed_of_mem_decodeSeq : ∀ c : BitVec 8, ∀ i ∈ (decodeSeq c).toOption, i.wellFormed = true := by decide

theorem wellFormed_of_decodeSeq {c : BitVec 8} {i : Instr} (h : decodeSeq c = .ok i) : i.wellFormed = true :=
  wellFormed_of_mem_decodeSeq c i (by rw [h]; rfl)

/-- No command constrains its operand beyond the width. -/
theorem wellFormed_of_encode_eq_cmd16 {w : BitVec 16} {i : Instr} (h : encode i = .cmd16 w) : i.wellFormed = true := by
  cases i
  case expandLow | expandHigh => cases h
  all_goals rfl

/-- Settles O2: the decoders of the two formats, each the converse of the encoder. -/
theorem encodeOfDecodeIsTheWord : Obligations.EncodeOfDecodeIsTheWord := by
  rintro (w | c) i h
  · have code := encode_of_decodeCmd16 h
    exact ⟨wellFormed_of_encode_eq_cmd16 code, code⟩
  · exact ⟨wellFormed_of_decodeSeq h, encode_of_decodeSeq_eq_ok h⟩

/-! ### The illegal words (R49) -/

theorem decodePlain_eq_error_iff {i : Instr} {idx : BitVec 4} {data : Byte} :
    (∃ e, decodePlain i idx data = .error e) ↔ idx ≠ 0#4 ∨ data ≠ 0#8 := by
  rw [← not_and_or]
  unfold decodePlain
  split <;> simp [*]

/-- The operation codes that no row of the table has. -/
theorem reservedOp_iff : ∀ op : BitVec 4, op = 0x0#4 ∨ 0x6#4 ≤ op ↔
    op ≠ 0x1#4 ∧ op ≠ 0x2#4 ∧ op ≠ 0x3#4 ∧ op ≠ 0x4#4 ∧ op ≠ 0x5#4 := by decide

theorem extractLsb'_three_eq_one_iff_le : ∀ idx : BitVec 4, idx.extractLsb' 3 1 = 1#1 ↔ 8#4 ≤ idx := by decide

/-- The list of R49, field by field: each operation code has its own condition on the other two fields. -/
theorem decodeCmd16_eq_error_iff {w : BitVec 16} : (∃ e, decodeCmd16 w = .error e) ↔
    (cmdOp w = 0x0#4 ∨ 0x6#4 ≤ cmdOp w ∨
      ((cmdOp w = 0x1#4 ∨ cmdOp w = 0x3#4 ∨ cmdOp w = 0x5#4) ∧ (cmdIdx w ≠ 0#4 ∨ cmdData w ≠ 0#8)) ∨
      (cmdOp w = 0x2#4 ∧ cmdIdx w ≠ 0#4) ∨ (cmdOp w = 0x4#4 ∧ (8#4 ≤ cmdIdx w ∨ cmdData w ≠ 0#8))) := by
  rw [← or_assoc, reservedOp_iff]
  simp only [decodeCmd16, extractLsb'_three_eq_one_iff_le]
  split_ifs with init absorb noIdx final rdh idx noData rdstat <;> simp [decodePlain_eq_error_iff, *]

/-- Settles O4: a word above 16 bits is refused for its width, any other by its fields. -/
theorem illegalWordsAreExactlyTheListed : Obligations.IllegalWordsAreExactlyTheListed := by
  refine ⟨fun w wide => if_neg (Nat.not_lt.mpr wide), fun w => ?_⟩
  rw [decodeCommand_toNat]
  exact decodeCmd16_eq_error_iff

/-- Settles O7: the decoders on twelve words. -/
theorem sampleWordsDecodeAsTheTablesSay : Obligations.SampleWordsDecodeAsTheTablesSay := by
  unfold Obligations.SampleWordsDecodeAsTheTablesSay
  decide

end Sys2Proof

/-! What an instruction can do, said once: `CommandEffect` and `EngineEffect` have one constructor for each outcome of a command
and of a micro-operation, and `exec_eq_next_iff` ties them to the model. A frame is then a case analysis on the outcome, and so
is a claim that an instruction answers in one state because it does in another. -/

namespace Sys2Proof.Machine

/-! ### The push as one update (R80) -/

/-- The state after a push: the byte at `B[N]`, and where the buffer fills, PARSE next with the continuation in RET. -/
def State.pushed (s : State) (x : Byte) (r : Ret) (c : BitVec 8) : State :=
  { s with b := s.b.setIfInBounds s.n.toNat x, n := s.n + 1#7, ret := if s.n = 63#7 then r else s.ret,
           seq := if s.n = 63#7 then seqParse else c }

section
variable (s : State) (x : Byte) (r : Ret) (c : BitVec 8)

@[simp] theorem State.pushed_h : (s.pushed x r c).h = s.h := rfl
@[simp] theorem State.pushed_v : (s.pushed x r c).v = s.v := rfl
@[simp] theorem State.pushed_w : (s.pushed x r c).w = s.w := rfl
@[simp] theorem State.pushed_b : (s.pushed x r c).b = s.b.setIfInBounds s.n.toNat x := rfl
@[simp] theorem State.pushed_n : (s.pushed x r c).n = s.n + 1#7 := rfl
@[simp] theorem State.pushed_len : (s.pushed x r c).len = s.len := rfl
@[simp] theorem State.pushed_seq : (s.pushed x r c).seq = if s.n = 63#7 then seqParse else c := rfl
@[simp] theorem State.pushed_ret : (s.pushed x r c).ret = if s.n = 63#7 then r else s.ret := rfl
@[simp] theorem State.pushed_port : (s.pushed x r c).port = s.port := rfl
@[simp] theorem State.pushed_inputs : (s.pushed x r c).inputs = s.inputs := rfl
@[simp] theorem State.pushed_responses : (s.pushed x r c).responses = s.responses := rfl
@[simp] theorem State.pushed_resets : (s.pushed x r c).resets = s.resets := rfl

theorem push_of_lt_64 (room : s.n.toNat < 64) : s.push x r c = .next (s.pushed x r c) := by
  by_cases full : s.n = 63#7
  · rw [push_of_63 s x r c full]
    simp [State.pushed, full]
  · rw [push_of_le_62 s x r c (by bv_omega)]
    simp [State.pushed, full]

theorem push_eq_next_iff {t : State} : s.push x r c = .next t ↔ s.n.toNat < 64 ∧ t = s.pushed x r c := by
  constructor
  · intro h
    obtain ⟨room, -⟩ := push_next h
    rw [push_of_lt_64 s x r c room] at h
    cases h
    exact ⟨room, rfl⟩
  · rintro ⟨room, rfl⟩
    exact push_of_lt_64 s x r c room

end

/-! ### The outcomes -/

/-- The phase an instruction needs, if it is a command that needs one (R111). -/
def neededPhase : Instr → Option (BitVec 8)
  | .absorb _ => some seqAccept
  | .final => some seqAccept
  | .rdh _ => some seqDone
  | _ => none

/-- The instruction is a command of the host (R47). -/
def IsCommand (i : Instr) : Prop := i = .init ∨ i = .rdstat ∨ ∃ p, neededPhase i = some p

/-- In state `s` command `i` can answer the next state `t`. One constructor for each outcome. -/
inductive CommandEffect (s : State) : Instr → State → Prop
  /-- A command other than RDSTAT at a busy code (R153). -/
  | held {i : Instr} (busy : s.isBusy = true) (command : i = .init ∨ ∃ p, neededPhase i = some p) :
      CommandEffect s i (s.hold (encode i))
  /-- BAD_PHASE (R132). -/
  | badPhase {i : Instr} {p : BitVec 8} (needs : neededPhase i = some p) (rest : s.isRest = true)
      (notErr : s.seq ≠ seqErr) (other : s.seq ≠ p) : CommandEffect s i (s.respond .badPhase 0#32)
  /-- TOO_LARGE in ERR (R133). -/
  | ended {i : Instr} {p : BitVec 8} (needs : neededPhase i = some p) (err : s.seq = seqErr) :
      CommandEffect s i (s.respond .tooLarge 0#32)
  /-- INIT (R112). -/
  | init (rest : s.isRest = true) : CommandEffect s .init
      ((((((s.setH ivRom).setN 0#7).setLen 0#64).setRet .accept).setSeq seqAccept).respond .ok 0#32)
  /-- ABSORB at the length limit (R133). -/
  | limit {bb : Byte} (phase : s.seq = seqAccept) (limit : s.len = lenMax) :
      CommandEffect s (.absorb bb) ((s.respond .tooLarge 0#32).setSeq seqErr)
  /-- ABSORB (R113). -/
  | absorb {bb : Byte} (phase : s.seq = seqAccept) (below : s.len ≠ lenMax) (room : s.n.toNat < 64) :
      CommandEffect s (.absorb bb) (((s.setLen (s.len + 8#64)).respond .ok 0#32).pushed bb .accept seqAccept)
  /-- FINAL (R114). -/
  | final (phase : s.seq = seqAccept) : CommandEffect s .final ((s.setSeq seqPadOne).respond .ok 0#32)
  /-- RDH (R115). -/
  | rdh {k : BitVec 3} (phase : s.seq = seqDone) : CommandEffect s (.rdh k) (s.respond .ok (s.hAt k))
  /-- RDSTAT (R116). -/
  | rdstat : CommandEffect s .rdstat (s.respond .ok s.statusWord)

/-- In state `s` micro-operation or rest code `i` can answer the next state `t`. One constructor for each outcome. -/
inductive EngineEffect (s : State) : Instr → State → Prop
  /-- The rest codes (R117). -/
  | wait {i : Instr} (rest : i = .idle ∨ i = .accept ∨ i = .done ∨ i = .err) : EngineEffect s i s
  /-- PARSE (R84). -/
  | parse : EngineEffect s .parse (((s.setW (parseWords s.b s.w)).setN 0#7).setSeq (seqExpand 16#6))
  /-- LOADV (R100). -/
  | loadv : EngineEffect s .loadv ((s.setV s.h).setSeq (seqRound 0#6))
  /-- FEEDFWD (R102). -/
  | feedfwd : EngineEffect s .feedfwd ((s.setH (addWords s.h s.v)).setSeq s.ret.code)
  /-- PAD_ONE (R81). -/
  | padOne (room : s.n.toNat < 64) : EngineEffect s .padOne (s.pushed 0x80#8 .padZero seqPadZero)
  /-- PAD_ZERO at N = 56 (R82). -/
  | padZeroEnds (at56 : s.n = 56#7) : EngineEffect s .padZero (s.setSeq (seqPadLen 0#3))
  /-- PAD_ZERO elsewhere (R82). -/
  | padZero (not56 : s.n ≠ 56#7) (room : s.n.toNat < 64) :
      EngineEffect s .padZero (s.pushed 0x00#8 .padZero seqPadZero)
  /-- PAD_LEN (R83). -/
  | padLen {k : BitVec 3} (room : s.n.toNat < 64) : EngineEffect s (.padLen k)
      (s.pushed (lenByte s.len k) .done (if k = 7#3 then s.seq else seqPadLen (k + 1#3)))
  /-- EXPAND, in either row (R95). -/
  | expand {i : Instr} {k : BitVec 6} (row : i = .expandLow k ∨ i = .expandHigh k) (inRange : 16 ≤ k.toNat) :
      EngineEffect s i ((s.writeW k (expandWord s.w k)).setSeq (if k = 63#6 then seqLoadv else seqExpand (k + 1#6)))
  /-- ROUND (R101). -/
  | round {k : BitVec 6} : EngineEffect s (.round k) ((s.setV (roundStep s.v (kAt k) (s.wAt k))).setSeq
      (if k = 63#6 then seqFeedfwd else seqRound (k + 1#6)))

/-- In state `s` instruction `i` can answer the next state `t`. -/
inductive Effect (s : State) (i : Instr) (t : State) : Prop
  | command (effect : CommandEffect s i t)
  | engine (effect : EngineEffect s i t)

section
variable {s t : State}

/-- The outcomes of a command that needs a phase: held, rejected, or its own rule. -/
theorem CommandEffect.of_whenInPhase {i : Instr} {p : BitVec 8} {perform : Result} (needs : neededPhase i = some p)
    (h : whenInPhase (encode i) p perform s = .next t) (performed : s.seq = p → perform = .next t → CommandEffect s i t) :
    CommandEffect s i t := by
  obtain ⟨defined, ⟨busy, rfl⟩ | ⟨-, err, rfl⟩ | ⟨-, -, phase, own⟩ | ⟨notBusy, notErr, other, rfl⟩⟩ := whenInPhase_next h
  · exact .held busy (.inr ⟨p, needs⟩)
  · have unchanged : s.raise .tooLarge = s.respond .tooLarge 0#32 := State.setSeq_of_eq err
    rw [unchanged]
    exact .ended needs err
  · exact performed phase own
  · exact .badPhase needs (isRest_of_not_isBusy defined notBusy) notErr other

theorem CommandEffect.of_init (h : exec .init s = .next t) : CommandEffect s .init t := by
  obtain ⟨defined, ⟨busy, rfl⟩ | ⟨notBusy, own⟩⟩ := whenAtRest_next h
  · exact .held busy (.inl rfl)
  · cases own
    exact .init (isRest_of_not_isBusy defined notBusy)

theorem CommandEffect.of_absorb {bb : Byte} (h : exec (.absorb bb) s = .next t) : CommandEffect s (.absorb bb) t := by
  refine .of_whenInPhase rfl h fun phase own => ?_
  split at own
  next limit =>
    cases own
    exact .limit phase limit
  next below =>
    obtain ⟨room, rfl⟩ := (push_eq_next_iff _ _ _ _).mp own
    exact .absorb phase below room

theorem CommandEffect.of_final (h : exec .final s = .next t) : CommandEffect s .final t := by
  refine .of_whenInPhase rfl h fun phase own => ?_
  cases own
  exact .final phase

theorem CommandEffect.of_rdh {k : BitVec 3} (h : exec (.rdh k) s = .next t) : CommandEffect s (.rdh k) t := by
  refine .of_whenInPhase rfl h fun phase own => ?_
  cases own
  exact .rdh phase

theorem EngineEffect.of_padZero (h : exec .padZero s = .next t) : EngineEffect s .padZero t := by
  by_cases at56 : s.n = 56#7
  · rw [exec_padZero_of_eq_56 at56] at h
    cases h
    exact .padZeroEnds at56
  · rw [exec_padZero_of_ne_56 at56, push_eq_next_iff] at h
    obtain ⟨room, rfl⟩ := h
    exact .padZero at56 room

theorem EngineEffect.of_expand {i : Instr} {k : BitVec 6} (row : i = .expandLow k ∨ i = .expandHigh k)
    (h : s.expand k = .next t) : EngineEffect s i t := by
  obtain ⟨inRange, rfl⟩ := expand_next h
  exact .expand row inRange

/-- What an instruction answers is one of its outcomes. -/
theorem Effect.of_exec {i : Instr} (h : exec i s = .next t) : Effect s i t := by
  cases i
  case init => exact .command (.of_init h)
  case absorb => exact .command (.of_absorb h)
  case final => exact .command (.of_final h)
  case rdh => exact .command (.of_rdh h)
  case rdstat =>
    cases h
    exact .command .rdstat
  case idle | accept | done | err =>
    cases h
    exact .engine (.wait (by simp))
  case parse =>
    cases h
    exact .engine .parse
  case loadv =>
    cases h
    exact .engine .loadv
  case feedfwd =>
    cases h
    exact .engine .feedfwd
  case round =>
    cases h
    exact .engine .round
  case padOne =>
    obtain ⟨room, rfl⟩ := (push_eq_next_iff _ _ _ _).mp h
    exact .engine (.padOne room)
  case padZero => exact .engine (.of_padZero h)
  case padLen =>
    obtain ⟨room, rfl⟩ := (push_eq_next_iff _ _ _ _).mp h
    exact .engine (.padLen room)
  case expandLow => exact .engine (.of_expand (.inl rfl) h)
  case expandHigh => exact .engine (.of_expand (.inr rfl) h)

/-- A command that needs a phase is its meaning at that phase's tests (R110). -/
theorem exec_of_neededPhase {i : Instr} {p : BitVec 8} (needs : neededPhase i = some p) :
    ∃ perform, exec i s = whenInPhase (encode i) p perform s := by
  cases i
  case absorb | final | rdh =>
    cases needs
    exact ⟨_, rfl⟩
  all_goals cases needs

/-- Every outcome of a command is what it answers under the outcome's premises. -/
theorem CommandEffect.exec_eq {i : Instr} (h : CommandEffect s i t) : exec i s = .next t := by
  cases h
  case held busy command =>
    obtain rfl | ⟨p, needs⟩ := command
    · exact whenAtRest_of_isBusy _ _ busy
    · obtain ⟨perform, meaning⟩ := exec_of_neededPhase (s := s) needs
      exact meaning.trans (whenAtRest_of_isBusy _ _ busy)
  case badPhase p rest notErr other needs =>
    obtain ⟨perform, meaning⟩ := exec_of_neededPhase (s := s) needs
    exact meaning.trans (whenInPhase_of_other_phase _ _ rfl (of_decide_eq_true rest) notErr other)
  case ended p err needs =>
    obtain ⟨perform, meaning⟩ := exec_of_neededPhase (s := s) needs
    exact meaning.trans (whenInPhase_of_err _ _ err)
  case init rest => exact whenAtRest_of_isRest _ _ rest
  case limit phase limit => exact exec_absorb_at_limit phase limit
  case absorb phase below room =>
    exact (exec_absorb_below_limit phase below).trans (push_of_lt_64 _ _ _ _ room)
  case final phase => exact whenInPhase_of_phase _ _ phase (by decide) (by decide)
  case rdh phase => exact whenInPhase_of_phase _ _ phase (by decide) (by decide)
  case rdstat => rfl

/-- Every outcome of a micro-operation or rest code is what it answers under the outcome's premises. -/
theorem EngineEffect.exec_eq {i : Instr} (h : EngineEffect s i t) : exec i s = .next t := by
  cases h
  case wait rest => rcases rest with rfl | rfl | rfl | rfl <;> rfl
  case padOne room => exact push_of_lt_64 _ _ _ _ room
  case padZeroEnds at56 => exact exec_padZero_of_eq_56 at56
  case padZero not56 room => exact (exec_padZero_of_ne_56 not56).trans (push_of_lt_64 _ _ _ _ room)
  case padLen room => exact push_of_lt_64 _ _ _ _ room
  case expand k inRange row => rcases row with rfl | rfl <;> exact expand_of_16_le s inRange
  case parse | loadv | feedfwd | round => rfl

theorem Effect.exec_eq {i : Instr} (h : Effect s i t) : exec i s = .next t := by
  cases h with
  | command effect => exact effect.exec_eq
  | engine effect => exact effect.exec_eq

/-- The outcomes are all that an instruction can answer, and it can answer each of them. -/
theorem exec_eq_next_iff {i : Instr} : exec i s = .next t ↔ Effect s i t := ⟨.of_exec, Effect.exec_eq⟩

/-! ### Commands and codes -/

theorem CommandEffect.isCommand {i : Instr} (h : CommandEffect s i t) : IsCommand i := by
  cases h
  case held command => exact command.imp_right .inr
  case badPhase needs | ended needs => exact .inr (.inr ⟨_, needs⟩)
  case init => exact .inl rfl
  case rdstat => exact .inr (.inl rfl)
  case limit | absorb | final | rdh => exact .inr (.inr ⟨_, rfl⟩)

theorem EngineEffect.not_isCommand {i : Instr} (h : EngineEffect s i t) : ¬ IsCommand i := by
  cases h
  case wait rest => rcases rest with rfl | rfl | rfl | rfl <;> simp [IsCommand, neededPhase]
  case expand row => rcases row with rfl | rfl <;> simp [IsCommand, neededPhase]
  all_goals simp [IsCommand, neededPhase]

/-- A sequencer code stands for no command. -/
theorem not_isCommand_of_decodeSeq {c : BitVec 8} {i : Instr} (h : decodeSeq c = .ok i) : ¬ IsCommand i := by
  have code := encode_of_decodeSeq_eq_ok h
  cases i
  case init | absorb | final | rdh | rdstat => cases code
  all_goals simp [IsCommand, neededPhase]

/-- A command word stands for a command. -/
theorem isCommand_of_decodeCommand {w : Nat} {i : Instr} (h : decodeCommand w = .ok i) : IsCommand i := by
  obtain ⟨v, word, -⟩ := decodeCommand_eq_ok_iff.mp h
  cases i
  case init => exact .inl rfl
  case rdstat => exact .inr (.inl rfl)
  case absorb | final | rdh => exact .inr (.inr ⟨_, rfl⟩)
  all_goals cases word

theorem CommandEffect.of_exec {i : Instr} (command : IsCommand i) (h : exec i s = .next t) : CommandEffect s i t := by
  cases Effect.of_exec h with
  | command effect => exact effect
  | engine effect => exact absurd command effect.not_isCommand

theorem EngineEffect.of_exec {c : BitVec 8} {i : Instr} (code : decodeSeq c = .ok i) (h : exec i s = .next t) :
    EngineEffect s i t := by
  cases Effect.of_exec h with
  | command effect => exact absurd effect.isCommand (not_isCommand_of_decodeSeq code)
  | engine effect => exact effect

end

end Sys2Proof.Machine

/-! Who writes what (20_memory.md section 1, 10_state.md sections 2 to 4): frames over all instructions, read off the
outcomes of `Effect`. -/

namespace Sys2Proof.Machine

section
variable {s t : State} {i : Instr}

/-! ### Bytes of B -/

theorem State.bAt_pushed (x : Byte) (r : Ret) (c : BitVec 8) {j : BitVec 6} (other : j.toNat ≠ s.n.toNat) :
    (s.pushed x r c).bAt j = s.bAt j :=
  Vector.getElem_setIfInBounds_ne j.isLt other.symm

theorem Effect.bAt_eq (h : Effect s i t) {j : BitVec 6} (other : j.toNat ≠ s.n.toNat) : t.bAt j = s.bAt j := by
  obtain h | h := h <;> cases h
  case command.absorb | engine.padOne | engine.padZero | engine.padLen => exact State.bAt_pushed _ _ _ other
  all_goals simp [State.bAt]

theorem Effect.b_eq (h : Effect s i t) (notAbsorb : ∀ bb, i ≠ .absorb bb) (notOne : i ≠ .padOne) (notZero : i ≠ .padZero)
    (notLen : ∀ k, i ≠ .padLen k) : t.b = s.b ∧ (t.n = s.n ∨ i = .init ∨ i = .parse) := by
  obtain h | h := h <;> cases h
  case command.absorb => exact absurd rfl (notAbsorb _)
  case engine.padOne => exact absurd rfl notOne
  case engine.padZero => exact absurd rfl notZero
  case engine.padLen => exact absurd rfl (notLen _)
  all_goals simp

/-- Settles O30: a push writes `B[N]` alone, and every other outcome keeps B. -/
theorem onlyThePushedByteOfTheBlockChanges : Obligations.OnlyThePushedByteOfTheBlockChanges :=
  fun _ _ _ h => ⟨fun _ other => (Effect.of_exec h).bAt_eq other, (Effect.of_exec h).b_eq⟩

/-! ### The other registers -/

theorem Effect.h_eq (h : Effect s i t) : t.h = s.h ∨ i = .init ∨ i = .feedfwd := by
  obtain h | h := h <;> cases h <;> simp

theorem Effect.v_eq (h : Effect s i t) : t.v = s.v ∨ i = .loadv ∨ ∃ k, i = .round k := by
  obtain h | h := h <;> cases h <;> simp

theorem Effect.w_eq (h : Effect s i t) : t.w = s.w ∨ i = .parse ∨ (∃ k, i = .expandLow k) ∨ ∃ k, i = .expandHigh k := by
  obtain h | h := h <;> cases h
  case engine.expand k _ row => exact .inr (.inr (row.imp (⟨k, ·⟩) (⟨k, ·⟩)))
  all_goals simp

theorem Effect.wAt_eq {k : BitVec 6} (h : Effect s i t) (row : i = .expandLow k ∨ i = .expandHigh k) {j : BitVec 6}
    (other : j ≠ k) : t.wAt j = s.wAt j := by
  obtain h | h := h <;> cases h
  case engine.expand l _ own =>
    obtain rfl : k = l := by
      rcases row with rfl | rfl <;> simpa using own
    exact s.wAt_writeW_other k j _ other.symm
  all_goals rcases row with row | row <;> simp_all [neededPhase]

theorem Effect.len_eq (h : Effect s i t) : t.len = s.len ∨ i = .init ∨ ∃ bb, i = .absorb bb := by
  obtain h | h := h <;> cases h <;> simp

theorem Effect.ret_eq (h : Effect s i t) :
    t.ret = s.ret ∨ i = .init ∨ (∃ bb, i = .absorb bb) ∨ i = .padOne ∨ i = .padZero ∨ ∃ k, i = .padLen k := by
  obtain h | h := h <;> cases h <;> simp

theorem Effect.seq_eq (h : Effect s i t)
    (reads : (∃ k, i = .rdh k) ∨ i = .rdstat ∨ i = .idle ∨ i = .accept ∨ i = .done ∨ i = .err) : t.seq = s.seq := by
  obtain h | h := h <;> cases h
  case engine.expand row => rcases row with rfl | rfl <;> simp at reads
  all_goals simp at reads ⊢

theorem Effect.inputs_eq (h : Effect s i t) : t.inputs = s.inputs := by
  obtain h | h := h <;> cases h <;> simp

theorem Effect.resets_eq (h : Effect s i t) : t.resets = s.resets := by
  obtain h | h := h <;> cases h <;> simp

/-- Settles O36: one frame for each register. -/
theorem registersHaveOnlyTheirNamedWriters : Obligations.RegistersHaveOnlyTheirNamedWriters := by
  intro i s t h
  have effect := Effect.of_exec h
  exact ⟨effect.h_eq, effect.v_eq, effect.w_eq, fun k row j other => effect.wAt_eq row other, effect.len_eq, effect.ret_eq,
    effect.seq_eq, effect.inputs_eq, effect.resets_eq⟩

/-! ### The port and the responses -/

/-- Only a command touches the port or returns a response. -/
theorem EngineEffect.port_eq (h : EngineEffect s i t) : t.port = s.port ∧ t.responses = s.responses := by
  cases h <;> simp

/-- Settles O37: what a sequencer code stands for is no command. -/
theorem engineStepsLeaveThePortAlone : Obligations.EngineStepsLeaveThePortAlone :=
  fun _ _ _ _ code h => (EngineEffect.of_exec code h).port_eq

/-- At a busy code every outcome but RDSTAT's leaves the responses. -/
theorem CommandEffect.responses_of_isBusy (h : CommandEffect s i t) (notRdstat : i ≠ .rdstat) (busy : s.isBusy = true) :
    t.responses = s.responses := by
  have notRest : s.isRest = false := by
    by_contra rest
    simp [isBusy_of_isRest (by simpa using rest)] at busy
  have notPhase {p : BitVec 8} (rest : p.toNat ≤ 3) (phase : s.seq = p) : False := by
    simp [State.isRest_of_seq phase rest] at notRest
  cases h
  case held => simp
  case badPhase rest _ _ _ | init rest => simp [rest] at notRest
  case ended err _ => exact (notPhase (by decide) err).elim
  case limit phase _ | absorb phase _ _ | final phase | rdh phase => exact (notPhase (by decide) phase).elim
  case rdstat => exact absurd rfl notRdstat

theorem Effect.responses_of_isBusy (h : Effect s i t) (notRdstat : i ≠ .rdstat) (busy : s.isBusy = true) :
    t.responses = s.responses := by
  obtain h | h := h
  · exact h.responses_of_isBusy notRdstat busy
  · exact h.port_eq.2

/-- The meaning of a held command, with its word as a number. -/
theorem exec_of_isBusy (busy : s.isBusy = true) (command : i = .init ∨ ∃ p, neededPhase i = some p) :
    exec i s = .next { s with port := some (encode i).toNat } :=
  (CommandEffect.held busy command).exec_eq

/-- Settles O58: the words of the four commands, and the frame of the responses. -/
theorem commandsAreHeldWhileBusy : Obligations.CommandsAreHeldWhileBusy := by
  refine ⟨fun s busy => ⟨exec_of_isBusy busy (.inl rfl), fun bb => ?_, exec_of_isBusy busy (.inr ⟨_, rfl⟩), fun k => ?_⟩,
    fun i s t h notRdstat busy => (Effect.of_exec h).responses_of_isBusy notRdstat busy⟩
  · rw [exec_of_isBusy busy (.inr ⟨_, rfl⟩), toNat_encode_absorb]
  · rw [exec_of_isBusy busy (.inr ⟨_, rfl⟩), toNat_encode_rdh]

end

/-! ### What a command changes (R111) -/

/-- Settles O21: the accepted commands and the limit of the length; every other outcome of a command leaves the registers. -/
theorem onlyAcceptedCommandsChangeTheEngine : Obligations.OnlyAcceptedCommandsChangeTheEngine := by
  intro i s t command h
  have isCommand : IsCommand i := by rcases command with rfl | ⟨bb, rfl⟩ | rfl | ⟨k, rfl⟩ | rfl <;> simp [IsCommand, neededPhase]
  cases CommandEffect.of_exec isCommand h
  case init | absorb | final => exact .inr (.inl ⟨rfl, by simp⟩)
  case limit phase limit => exact .inr (.inr ⟨by simp, phase, limit, rfl, rfl, by simp [State.SameEngine]⟩)
  case held | badPhase | ended | rdh | rdstat => exact .inl (by simp [State.SameEngine])

end Sys2Proof.Machine

/-! The outcomes of the commands, phase by phase (45_driver_commands.md R111), and the flags of STATUS that name the phases. -/

namespace Sys2Proof.Machine

/-! ### The flags (R19) -/

/-- At most one of the three codes is in SEQ, and each is a rest code: one evaluation for each of the 256 codes. -/
theorem flags_exclusive : ∀ c : BitVec 8,
    (decide (c = seqAccept)).toNat + (decide (c = seqDone)).toNat + (decide (c = seqErr)).toNat ≤
      (decide (c.toNat ≤ 3)).toNat := by decide

/-- Settles O19: the four flags are functions of the code in SEQ. -/
theorem statusFlagsAreExclusive : Obligations.StatusFlagsAreExclusive := by
  intro s
  rw [s.getLsbD_statusWord_zero, s.getLsbD_statusWord_one, s.getLsbD_statusWord_two, s.getLsbD_statusWord_three]
  exact flags_exclusive s.seq

/-! ### The table of outcomes (R111) -/

section
variable {s t : State} {i : Instr}

theorem CommandEffect.answers {c : Code} {d : Word} (h : CommandEffect s i t) (returned : t.responses = s.responses ++ [⟨c, d⟩]) :
    Answers s (exec i s) c :=
  ⟨t, d, h.exec_eq, returned⟩

theorem answers_init (rest : s.isRest = true) : Answers s (exec .init s) .ok := (CommandEffect.init rest).answers rfl

theorem answers_badPhase {p code : BitVec 8} (needs : neededPhase i = some p) (phase : s.seq = code) (rest : code.toNat ≤ 3)
    (notErr : code ≠ seqErr) (other : code ≠ p) : Answers s (exec i s) .badPhase :=
  (CommandEffect.badPhase needs (State.isRest_of_seq phase rest) (phase ▸ notErr) (phase ▸ other)).answers rfl

theorem answers_ended {p : BitVec 8} (needs : neededPhase i = some p) (err : s.seq = seqErr) :
    Answers s (exec i s) .tooLarge :=
  (CommandEffect.ended needs err).answers rfl

theorem answers_absorb {bb : Byte} (phase : s.seq = seqAccept) (room : s.n.toNat ≤ 63) :
    Answers s (exec (.absorb bb) s) (if s.len = lenMax then .tooLarge else .ok) := by
  split
  next limit => exact (CommandEffect.limit phase limit).answers rfl
  next below => exact (CommandEffect.absorb phase below (by omega)).answers rfl

theorem answers_illegal_word {w : Nat} {e : DecodeError} (defined : s.isReserved = false) (noInputs : s.inputs = [])
    (onPort : s.port = some w) (illegal : decodeCommand w = .error e) : Answers s (step s) .illegalCmd :=
  ⟨_, 0#32, step_of_illegal_word defined noInputs onPort illegal, rfl⟩

/-- Settles O20: the table of R111, a row for each rest code and one for the busy codes. -/
theorem outcomeOfEveryCommandInEveryPhase : Obligations.OutcomeOfEveryCommandInEveryPhase := by
  intro s bb k defined
  refine ⟨fun idle => ?_, fun accept => ?_, fun done => ?_, fun err => ?_, fun busy => ?_, CommandEffect.rdstat.answers rfl,
    fun w e noInputs onPort illegal => answers_illegal_word defined noInputs onPort illegal⟩
  · exact ⟨answers_init (State.isRest_of_seq idle (by decide)),
      answers_badPhase rfl idle (by decide) (by decide) (by decide),
      answers_badPhase rfl idle (by decide) (by decide) (by decide),
      answers_badPhase rfl idle (by decide) (by decide) (by decide)⟩
  · exact ⟨answers_init (State.isRest_of_seq accept (by decide)), answers_absorb accept, (CommandEffect.final accept).answers rfl,
      answers_badPhase rfl accept (by decide) (by decide) (by decide)⟩
  · exact ⟨answers_init (State.isRest_of_seq done (by decide)),
      answers_badPhase rfl done (by decide) (by decide) (by decide),
      answers_badPhase rfl done (by decide) (by decide) (by decide), (CommandEffect.rdh done).answers rfl⟩
  · exact ⟨answers_init (State.isRest_of_seq err (by decide)), answers_ended rfl err, answers_ended rfl err,
      answers_ended rfl err⟩
  · exact ⟨exec_of_isBusy busy (.inl rfl), exec_of_isBusy busy (.inr ⟨_, rfl⟩), exec_of_isBusy busy (.inr ⟨_, rfl⟩),
      exec_of_isBusy busy (.inr ⟨_, rfl⟩)⟩

end

/-- Settles O43: the reset values, and in IDLE what `answers_of_idle` says. -/
theorem resetLeavesPhaseIdle : Obligations.ResetLeavesPhaseIdle := fun _ bb i =>
  ⟨rfl, rfl, rfl, rfl, statusWord_of_idle rfl rfl, answers_of_idle rfl bb i⟩

/-! The step (10_state.md R10, 45_driver_commands.md R110, R117): which instruction it runs, and what the host's events do. -/

section
variable {s t : State} {i : Instr}

/-! ### The step with no event to come -/

theorem engineStep_of_decodeSeq (code : decodeSeq s.seq = .ok i) : engineStep s = exec i s := by
  rw [engineStep, code]

theorem advance_of_free_port (free : s.port = none) (code : decodeSeq s.seq = .ok i) : advance s = exec i s := by
  have defined : s.isReserved = false := (isReserved_eq_false_iff s).mpr ⟨i, code⟩
  simp [advance, defined, free, engineStep_of_decodeSeq code]

theorem step_of_free_port (noInputs : s.inputs = []) (free : s.port = none) (code : decodeSeq s.seq = .ok i) :
    step s = exec i s := by
  rw [step_of_no_inputs noInputs, advance_of_free_port free code]

theorem decidesNow_iff : s.decidesNow i = true ↔ i = .rdstat ∨ s.isRest = true := by
  simp [State.decidesNow]

theorem quiet_of_held {w : Nat} (noInputs : s.inputs = []) (onPort : s.port = some w) (legal : decodeCommand w = .ok i)
    (notRdstat : i ≠ .rdstat) : s.quiet = true :=
  quiet_iff.mpr ⟨noInputs, fun v onPort' => by
    obtain rfl : w = v := Option.some.inj (onPort.symm.trans onPort')
    exact waits_iff.mpr ⟨i, legal, notRdstat⟩⟩

/-- Settles O39: nothing on the port, a command that is decided now, a held command. -/
theorem stepRunsTheDecodedInstruction : Obligations.StepRunsTheDecodedInstruction := by
  refine ⟨fun s i noInputs free code => step_of_free_port noInputs free code,
    fun s w i noInputs onPort legal defined now => ?_, fun s w i j noInputs onPort legal notRdstat busy code => ?_⟩
  · rw [step_of_no_inputs noInputs, advance_of_decidesNow defined onPort legal (decidesNow_iff.mpr now)]
  · rw [step_of_quiet busy (quiet_of_held noInputs onPort legal notRdstat), engineStep_of_decodeSeq code]

/-- The four rest codes decode to the four instructions that wait (R117). -/
theorem decodeSeq_of_isRest (rest : s.isRest = true) : ∃ i, decodeSeq s.seq = .ok i ∧ EngineEffect s i s := by
  rcases (isRest_iff s).mp rest with code | code | code | code <;> rw [code] <;> exact ⟨_, rfl, .wait (by simp)⟩

theorem step_of_isRest (rest : s.isRest = true) (noInputs : s.inputs = []) (free : s.port = none) : step s = .next s := by
  obtain ⟨i, code, waits⟩ := decodeSeq_of_isRest rest
  rw [step_of_free_port noInputs free code, waits.exec_eq]

/-- Settles O35: the rest codes wait, and with nothing presented the step is the meaning of the code in SEQ. -/
theorem restCodesWait : Obligations.RestCodesWait :=
  ⟨fun _ => ⟨rfl, rfl, rfl, rfl⟩, fun _ => step_of_isRest, fun _ _ _ noInputs free code =>
    step_of_free_port noInputs free code⟩

/-! ### The host's events -/

theorem step_of_command_waiting {w p : Nat} {rest : List HostEvent} (next : s.inputs = .command w :: rest)
    (taken : s.port = some p) : step s = advance s := by
  simp [step, machineStep, State.takeInput, next, taken]

theorem step_of_pass {rest : List HostEvent} (next : s.inputs = .pass :: rest) : step s = advance (s.setInputs rest) := by
  simp [step, machineStep, State.takeInput, next]

/-- A step of host or engine leaves the events to come. -/
theorem advance_inputs (h : advance s = .next t) : t.inputs = s.inputs := by
  obtain ⟨-, ⟨_, _, -, -, rfl⟩ | ⟨_, _, -, -, -, run⟩ | ⟨_, -, run, -⟩⟩ := advance_next h
  · exact s.raise_inputs _
  · exact (Effect.of_exec run).inputs_eq
  · exact (Effect.of_exec run).inputs_eq

/-- Settles O40: the host's move for each event, and the frame of the events. -/
theorem hostEventsPresentCommandsInOrder : Obligations.HostEventsPresentCommandsInOrder := fun _ _ =>
  ⟨fun _ next free => step_of_command_presented next free, fun _ _ next taken => step_of_command_waiting next taken,
    step_of_pass, fun _ => advance_inputs⟩

/-- Settles O41: the poll logs STATUS, which does not look at the events to come. -/
theorem pollChangesNothingButTheResponses : Obligations.PollChangesNothingButTheResponses := by
  intro s rest next defined
  have definedAfter : (s.setInputs rest).isReserved = false := defined
  simp only [step, machineStep, next, pollStep, definedAfter]
  rfl

/-! ### The placed word (log entry 5) -/

theorem eq_ok_of_toOption {ε α : Type} {r : Except ε α} {a : α} (h : r.toOption = some a) : r = .ok a := by
  cases r with
  | ok b => exact congrArg Except.ok (Option.some.inj h)
  | error e => cases h

theorem step_of_placed_code {w : Nat} (code : decodeSeq (BitVec.ofNat 8 w) = .ok i) :
    step (s.withFetchWord 8 w) = exec i (s.withFetchWord 8 w) :=
  step_of_free_port rfl rfl code

theorem step_of_placed_command {w : Nat} (legal : decodeCommand w = .ok i) :
    step (s.withFetchWord 16 w) = exec i (s.withFetchWord 16 w) := by
  have rest : (s.withFetchWord 16 w).isRest = true := by
    change decide ((if s.isRest then s.seq else seqIdle).toNat ≤ 3) = true
    split
    next atRest => exact atRest
    next => decide
  have noInputs : (s.withFetchWord 16 w).inputs = [] := rfl
  rw [step_of_no_inputs noInputs,
    advance_of_decidesNow (isReserved_of_isRest rest) rfl legal (decidesNow_iff.mpr (.inr rest))]

/-- Settles O42: a command word stands on the port of an engine at rest, a code stands in SEQ with the port free. -/
theorem placedWordRunsNext : Obligations.PlacedWordRunsNext := by
  intro s nbits w i decoded
  unfold decodeTableWord at decoded
  split_ifs at decoded with command code
  · subst command
    exact step_of_placed_command (eq_ok_of_toOption decoded)
  · obtain ⟨rfl, -⟩ := code
    exact step_of_placed_code (eq_ok_of_toOption decoded)

end

end Sys2Proof.Machine

/-! The invariant (10_state.md section 10, R26). `InvAt s i` is the row of the table for the code that decodes to `i`; each
outcome of an instruction leads from its row to the row of the next code. -/

namespace Sys2Proof.Machine

/-! ### The rows -/

/-- The row of the invariant's table for the code of the instruction. -/
def State.InvAt (s : State) : Instr → Prop
  | .idle => s.n = 0#7 ∧ s.ret = .accept ∧ s.len = 0#64
  | .accept | .padOne => s.n.toNat ≤ 63 ∧ s.n.toNat = s.lenMod ∧ s.ret = .accept
  | .padZero => s.n.toNat ≤ 63 ∧ s.ret ≠ .done
  | .padLen i => s.n.toNat = 56 + i.toNat ∧ s.ret ≠ .done
  | .parse => s.n = 64#7 ∧ s.blockRet = true
  | .loadv | .feedfwd | .expandLow _ | .expandHigh _ | .round _ => s.n = 0#7 ∧ s.blockRet = true
  | .done => s.n = 0#7 ∧ s.ret = .done
  | .err => s.n = 63#7 ∧ s.len = lenMax ∧ s.ret = .accept
  | .init | .absorb _ | .final | .rdh _ | .rdstat => False

section
variable {s t : State} {i : Instr}

theorem inv_iff_of_decodeSeq (code : decodeSeq s.seq = .ok i) : s.inv = true ↔ 8 ∣ s.len.toNat ∧ s.InvAt i := by
  rw [Nat.dvd_iff_mod_eq_zero, State.inv, State.phaseInv, code, Bool.and_eq_true, decide_eq_true_eq]
  cases i <;> simp [State.InvAt]

/-- A state of the invariant has a defined code in SEQ, LEN a multiple of 8, and the code's row. -/
theorem exists_row_of_inv (inv : s.inv = true) :
    ∃ i, decodeSeq s.seq = .ok i ∧ 8 ∣ s.len.toNat ∧ s.InvAt i := by
  cases code : decodeSeq s.seq with
  | ok i => exact ⟨i, rfl, (inv_iff_of_decodeSeq code).mp inv⟩
  | error e => simp [State.inv, State.phaseInv, code] at inv

theorem isReserved_of_inv (inv : s.inv = true) : s.isReserved = false := by
  obtain ⟨i, code, -⟩ := exists_row_of_inv inv
  exact (isReserved_eq_false_iff s).mpr ⟨i, code⟩

theorem blockRet_iff : s.blockRet = true ↔ (s.ret = .accept → s.lenMod = 0) := decide_eq_true_iff

theorem blockRet_congr (len : t.len = s.len) (ret : t.ret = s.ret) : t.blockRet = s.blockRet := by
  rw [State.blockRet, State.blockRet, State.lenMod, State.lenMod, len, ret]

theorem eight_dvd_len_of_inv (inv : s.inv = true) : 8 ∣ s.len.toNat := by
  obtain ⟨-, -, whole, -⟩ := exists_row_of_inv inv
  exact whole

/-- The row of ACCEPT, with LEN given by the code in SEQ. -/
theorem row_of_accept (inv : s.inv = true) (phase : s.seq = seqAccept) :
    s.n.toNat ≤ 63 ∧ s.n.toNat = s.lenMod ∧ s.ret = .accept :=
  ((inv_iff_of_decodeSeq (i := .accept) (by rw [phase]; rfl)).mp inv).2

/-- Settles O45: the row of IDLE. -/
theorem invariantHoldsAtReset : Obligations.InvariantHoldsAtReset :=
  (inv_iff_of_decodeSeq (s := State.reset) (i := .idle) rfl).mpr ⟨⟨0, rfl⟩, rfl, rfl, rfl⟩

/-- The registers the invariant looks at. -/
theorem inv_congr (seq : t.seq = s.seq) (n : t.n = s.n) (len : t.len = s.len) (ret : t.ret = s.ret) : t.inv = s.inv := by
  cases s
  cases t
  cases seq
  cases n
  cases len
  cases ret
  rfl

theorem State.InvAt.of_eq (row : s.InvAt i) (n : t.n = s.n) (len : t.len = s.len) (ret : t.ret = s.ret) : t.InvAt i := by
  cases i
  case init | absorb | final | rdh | rdstat => exact row
  all_goals simpa only [State.InvAt, blockRet_iff, State.lenMod, n, len, ret] using row

/-! ### The length -/

/-- Below the limit another 8 bits do not wrap (R15). -/
theorem toNat_len_add_eight {len : BitVec 64} (whole : 8 ∣ len.toNat) (below : len ≠ lenMax) :
    (len + 8#64).toNat = len.toNat + 8 := by
  have limit : len.toNat ≠ 2 ^ 64 - 8 := fun e => below (BitVec.eq_of_toNat_eq e)
  have bound := len.isLt
  rw [BitVec.toNat_add, BitVec.toNat_ofNat]
  omega

/-- Settles O38: the accepted byte, and the outcomes of ABSORB that are not OK. -/
theorem lengthGrowsByEightWithoutWrapping : Obligations.LengthGrowsByEightWithoutWrapping := by
  intro bb s t inv h
  cases CommandEffect.of_exec (.inr (.inr ⟨_, rfl⟩)) h
  case absorb phase below room => simpa using toNat_len_add_eight (eight_dvd_len_of_inv inv) below
  all_goals simp

/-! ### Every outcome keeps the invariant -/

/-- A push that fills the buffer goes to PARSE, any other to the caller's code. -/
theorem inv_pushed {x : Byte} {r : Ret} {c : BitVec 8} (whole : 8 ∣ s.len.toNat) (code : decodeSeq c = .ok i)
    (room : s.n.toNat < 64) (full : s.n.toNat = 63 → r = .accept → s.lenMod = 0)
    (row : s.n.toNat < 63 → (s.pushed x r c).InvAt i) : (s.pushed x r c).inv = true := by
  by_cases last : s.n = 63#7
  · have parse : decodeSeq (s.pushed x r c).seq = .ok .parse := by
      rw [State.pushed_seq, if_pos last]
      rfl
    have filled : (s.pushed x r c).n = 64#7 := by rw [State.pushed_n, last]; rfl
    refine (inv_iff_of_decodeSeq parse).mpr ⟨whole, filled, blockRet_iff.mpr ?_⟩
    rw [State.pushed_ret, if_pos last]
    exact full (by rw [last]; rfl)
  · have next : decodeSeq (s.pushed x r c).seq = .ok i := by rwa [State.pushed_seq, if_neg last]
    exact (inv_iff_of_decodeSeq next).mpr ⟨whole, row (by bv_omega)⟩

/-- An outcome that fills no buffer, from the code it leads to. -/
theorem inv_of_row (c : BitVec 8) (seq : t.seq = c) (code : decodeSeq c = .ok i) (whole : 8 ∣ t.len.toNat)
    (row : t.InvAt i) : t.inv = true :=
  (inv_iff_of_decodeSeq (by rw [seq, code])).mpr ⟨whole, row⟩

theorem inv_absorbed {bb : Byte} (inv : s.inv = true) (phase : s.seq = seqAccept) (below : s.len ≠ lenMax)
    (room : s.n.toNat < 64) : (((s.setLen (s.len + 8#64)).respond .ok 0#32).pushed bb .accept seqAccept).inv = true := by
  have whole := eight_dvd_len_of_inv inv
  have longer := toNat_len_add_eight whole below
  obtain ⟨-, count, ret⟩ := row_of_accept inv phase
  have counted : (s.len.toNat + 8) / 8 % 64 = (s.n.toNat + 1) % 64 := by rw [count, State.lenMod]; omega
  refine inv_pushed (i := .accept) ?_ rfl room (fun full _ => ?_) fun notFull => ⟨?_, ?_, ?_⟩
  · change 8 ∣ (s.len + 8#64).toNat
    omega
  · change (s.len + 8#64).toNat / 8 % 64 = 0
    change s.n.toNat = 63 at full
    rw [longer, counted, full]
  · change s.n.toNat < 63 at notFull
    change (s.n + 1#7).toNat ≤ 63
    bv_omega
  · change s.n.toNat < 63 at notFull
    change (s.n + 1#7).toNat = (s.len + 8#64).toNat / 8 % 64
    rw [longer, counted]
    bv_omega
  · simp [ret]

theorem inv_padOne (inv : s.inv = true) (code : decodeSeq s.seq = .ok .padOne) (room : s.n.toNat < 64) :
    (s.pushed 0x80#8 .padZero seqPadZero).inv = true := by
  obtain ⟨whole, -, -, ret⟩ := (inv_iff_of_decodeSeq code).mp inv
  refine inv_pushed (i := .padZero) whole rfl room (by simp) fun notFull => ⟨?_, ?_⟩
  · rw [State.pushed_n]
    bv_omega
  · have notLast : s.n ≠ 63#7 := by bv_omega
    simp [notLast, ret]

theorem inv_padZero (inv : s.inv = true) (code : decodeSeq s.seq = .ok .padZero) (room : s.n.toNat < 64) :
    (s.pushed 0x00#8 .padZero seqPadZero).inv = true := by
  obtain ⟨whole, -, ret⟩ := (inv_iff_of_decodeSeq code).mp inv
  refine inv_pushed (i := .padZero) whole rfl room (by simp) fun notFull => ⟨?_, ?_⟩
  · rw [State.pushed_n]
    bv_omega
  · have notLast : s.n ≠ 63#7 := by bv_omega
    simp [notLast, ret]

theorem inv_padZeroEnds (inv : s.inv = true) (code : decodeSeq s.seq = .ok .padZero) (at56 : s.n = 56#7) :
    (s.setSeq (seqPadLen 0#3)).inv = true := by
  obtain ⟨whole, -, ret⟩ := (inv_iff_of_decodeSeq code).mp inv
  exact inv_of_row _ rfl (decodeSeq_seqPadLen 0#3) whole ⟨by simp [at56], ret⟩

theorem inv_padLen {k : BitVec 3} (inv : s.inv = true) (code : decodeSeq s.seq = .ok (.padLen k)) (room : s.n.toNat < 64) :
    (s.pushed (lenByte s.len k) .done (if k = 7#3 then s.seq else seqPadLen (k + 1#3))).inv = true := by
  obtain ⟨whole, atByte, ret⟩ := (inv_iff_of_decodeSeq code).mp inv
  by_cases last : k = 7#3
  · refine inv_pushed (i := .padLen k) whole (by rw [if_pos last, code]) room (by simp) fun notFull => ?_
    bv_omega
  · refine inv_pushed (i := .padLen (k + 1#3)) whole (by rw [if_neg last, decodeSeq_seqPadLen]) room (by simp)
      fun notFull => ⟨?_, ?_⟩
    · rw [State.pushed_n]
      bv_omega
    · have notLast : s.n ≠ 63#7 := by bv_omega
      simp [notLast, ret]

/-- After FEEDFWD the row is that of the continuation in RET. -/
theorem inv_feedfwd (inv : s.inv = true) (code : decodeSeq s.seq = .ok .feedfwd) :
    ((s.setH (addWords s.h s.v)).setSeq s.ret.code).inv = true := by
  obtain ⟨whole, n, block⟩ := (inv_iff_of_decodeSeq code).mp inv
  have empty : s.n.toNat = 0 := by rw [n]; rfl
  cases ret : s.ret with
  | accept =>
    refine inv_of_row seqAccept (i := .accept) rfl rfl whole ⟨?_, ?_, ret⟩
    · exact empty.trans_le (by decide)
    · exact empty.trans (blockRet_iff.mp block ret).symm
  | padZero =>
    refine inv_of_row seqPadZero (i := .padZero) rfl rfl whole ⟨empty.trans_le (by decide), ?_⟩
    simp [ret]
  | done => exact inv_of_row seqDone (i := .done) rfl rfl whole ⟨n, ret⟩

/-- What follows an EXPAND is another EXPAND or LOADV. -/
theorem decodeSeq_expand_successor : ∀ k : BitVec 6, 16 ≤ k.toNat →
    ∃ j, decodeSeq (if k = 63#6 then seqLoadv else seqExpand (k + 1#6)) = .ok j ∧
      (j = .loadv ∨ (∃ l, j = .expandLow l) ∨ ∃ l, j = .expandHigh l) := by
  intro k inRange
  by_cases last : k = 63#6
  · exact ⟨.loadv, by rw [if_pos last]; rfl, .inl rfl⟩
  · rw [if_neg last]
    by_cases low : (k + 1#6).toNat ≤ 31
    · exact ⟨_, decodeSeq_seqExpand_low _ (by bv_omega) low, .inr (.inl ⟨_, rfl⟩)⟩
    · exact ⟨_, decodeSeq_seqExpand_high _ (by omega), .inr (.inr ⟨_, rfl⟩)⟩

/-- What follows a ROUND is another ROUND or FEEDFWD. -/
theorem decodeSeq_round_successor (k : BitVec 6) :
    ∃ j, decodeSeq (if k = 63#6 then seqFeedfwd else seqRound (k + 1#6)) = .ok j ∧ (j = .feedfwd ∨ ∃ l, j = .round l) := by
  by_cases last : k = 63#6
  · exact ⟨.feedfwd, by rw [if_pos last]; rfl, .inl rfl⟩
  · exact ⟨_, by rw [if_neg last, decodeSeq_seqRound], .inr ⟨_, rfl⟩⟩

/-- The micro-operations and rest codes (R117), from the row of their own code. -/
theorem EngineEffect.inv (h : EngineEffect s i t) (code : decodeSeq s.seq = .ok i) (inv : s.inv = true) : t.inv = true := by
  have row := (inv_iff_of_decodeSeq code).mp inv
  cases h
  case wait => exact inv
  case padOne room => exact inv_padOne inv code room
  case padZeroEnds at56 => exact inv_padZeroEnds inv code at56
  case padZero _ room => exact inv_padZero inv code room
  case padLen room => exact inv_padLen inv code room
  case feedfwd => exact inv_feedfwd inv code
  case parse =>
    obtain ⟨whole, -, block⟩ := row
    exact inv_of_row _ rfl (decodeSeq_seqExpand_low 16#6 (by decide) (by decide)) (by simpa using whole)
      ⟨by simp, (blockRet_congr (by simp) (by simp)).trans block⟩
  case loadv =>
    obtain ⟨whole, block⟩ := row
    exact inv_of_row _ rfl (decodeSeq_seqRound 0#6) whole (block.of_eq rfl rfl rfl)
  case expand k inRange own =>
    obtain ⟨whole, block⟩ : 8 ∣ s.len.toNat ∧ s.InvAt .loadv := by rcases own with rfl | rfl <;> exact row
    obtain ⟨j, next, rfl | ⟨l, rfl⟩ | ⟨l, rfl⟩⟩ := decodeSeq_expand_successor k inRange
    all_goals exact inv_of_row _ rfl next whole (block.of_eq rfl rfl rfl)
  case round k =>
    obtain ⟨whole, block⟩ := row
    obtain ⟨j, next, rfl | ⟨l, rfl⟩⟩ := decodeSeq_round_successor k
    all_goals exact inv_of_row _ rfl next whole (block.of_eq rfl rfl rfl)

/-- The commands, from the row of the phase they are decided in. -/
theorem CommandEffect.inv (h : CommandEffect s i t) (inv : s.inv = true) : t.inv = true := by
  have unchanged {u : State} (seq : u.seq = s.seq) (n : u.n = s.n) (len : u.len = s.len) (ret : u.ret = s.ret) :
      u.inv = true := (inv_congr seq n len ret).trans inv
  have whole := eight_dvd_len_of_inv inv
  cases h
  case held | badPhase | ended | rdh | rdstat => exact unchanged (by simp) (by simp) (by simp) (by simp)
  case init => exact inv_of_row seqAccept (i := .accept) rfl rfl ⟨0, rfl⟩ ⟨Nat.zero_le 63, by simp [State.lenMod], rfl⟩
  case limit phase limit =>
    obtain ⟨room, count, ret⟩ := row_of_accept inv phase
    have full : s.n = 63#7 := by
      rw [State.lenMod, limit] at count
      exact BitVec.eq_of_toNat_eq count
    exact inv_of_row seqErr (i := .err) rfl rfl whole ⟨full, limit, ret⟩
  case absorb phase below room => exact inv_absorbed inv phase below room
  case final phase =>
    have phaseRow : s.InvAt .padOne := row_of_accept inv phase
    exact inv_of_row seqPadOne (i := .padOne) rfl rfl whole (phaseRow.of_eq rfl rfl rfl)

/-! ### The step -/

theorem advance_inv (inv : s.inv = true) (h : advance s = .next t) : t.inv = true := by
  obtain ⟨-, ⟨_, _, -, -, rfl⟩ | ⟨w, i, -, legal, -, run⟩ | ⟨i, code, run, -⟩⟩ := advance_next h
  · exact (inv_congr rfl rfl rfl rfl).trans inv
  · exact (CommandEffect.of_exec (isCommand_of_decodeCommand legal) run).inv inv
  · exact (EngineEffect.of_exec code run).inv code inv

theorem resetEvent_inv (s : State) : s.resetEvent.inv = true :=
  (inv_congr (s := State.reset) (t := s.resetEvent) rfl rfl rfl rfl).trans invariantHoldsAtReset

/-- Settles O46: a reset goes to the row of IDLE, a poll changes no register, and a step of host or engine goes to the row of
its outcome. -/
theorem stepKeepsTheInvariant : Obligations.StepKeepsTheInvariant := by
  intro s t inv h
  obtain ⟨rest, -, rfl⟩ | ⟨rest, -, -, rfl⟩ | ⟨-, -, adv⟩ := step_next h
  · exact resetEvent_inv _
  · exact (inv_congr rfl rfl rfl rfl).trans inv
  · exact advance_inv ((takeInput_inv s).trans inv) adv

/-! ### Progress -/

/-- At every code of the invariant the micro-operation or rest code answers. -/
theorem exists_effect_of_row (code : decodeSeq s.seq = .ok i) (row : s.InvAt i) : ∃ t, EngineEffect s i t := by
  cases i
  case init | absorb | final | rdh | rdstat => exact row.elim
  case idle | accept | done | err => exact ⟨s, .wait (by simp)⟩
  case parse => exact ⟨_, .parse⟩
  case loadv => exact ⟨_, .loadv⟩
  case feedfwd => exact ⟨_, .feedfwd⟩
  case round => exact ⟨_, .round⟩
  case expandLow k =>
    obtain ⟨low, -⟩ := of_decide_eq_true (wellFormed_of_decodeSeq code)
    exact ⟨_, .expand (.inl rfl) low⟩
  case expandHigh k =>
    have high : 32 ≤ k.toNat := of_decide_eq_true (wellFormed_of_decodeSeq code)
    exact ⟨_, .expand (.inr rfl) (by omega)⟩
  case padOne =>
    obtain ⟨room, -⟩ := row
    exact ⟨_, .padOne (by omega)⟩
  case padLen k =>
    obtain ⟨atByte, -⟩ := row
    exact ⟨_, .padLen (by omega)⟩
  case padZero =>
    obtain ⟨room, -⟩ := row
    by_cases at56 : s.n = 56#7
    · exact ⟨_, .padZeroEnds at56⟩
    · exact ⟨_, .padZero at56 (by omega)⟩

/-- A command that needs a phase has an outcome at every rest code: its own rule in its phase, a rejection elsewhere. -/
theorem exists_effect_of_neededPhase {p : BitVec 8} (needs : neededPhase i = some p) (rest : s.isRest = true)
    (own : s.seq = p → ∃ t, CommandEffect s i t) : ∃ t, CommandEffect s i t := by
  by_cases err : s.seq = seqErr
  · exact ⟨_, .ended needs err⟩
  · by_cases phase : s.seq = p
    · exact own phase
    · exact ⟨_, .badPhase needs rest err phase⟩

/-- A command decided in a state of the invariant has an outcome. -/
theorem exists_effect_of_decidesNow {w : Nat} (inv : s.inv = true) (legal : decodeCommand w = .ok i)
    (now : s.decidesNow i = true) : ∃ t, CommandEffect s i t := by
  obtain rfl | rest := decidesNow_iff.mp now
  · exact ⟨_, .rdstat⟩
  obtain ⟨v, word, -⟩ := decodeCommand_eq_ok_iff.mp legal
  cases i
  case init => exact ⟨_, .init rest⟩
  case rdstat => exact ⟨_, .rdstat⟩
  case final => exact exists_effect_of_neededPhase rfl rest fun phase => ⟨_, .final phase⟩
  case rdh => exact exists_effect_of_neededPhase rfl rest fun phase => ⟨_, .rdh phase⟩
  case absorb =>
    refine exists_effect_of_neededPhase rfl rest fun phase => ?_
    obtain ⟨room, -⟩ := row_of_accept inv phase
    by_cases limit : s.len = lenMax
    · exact ⟨_, .limit phase limit⟩
    · exact ⟨_, .absorb phase limit (by omega)⟩
  all_goals cases word

theorem exists_engineStep (inv : s.inv = true) : ∃ t, engineStep s = .next t := by
  obtain ⟨i, code, -, row⟩ := exists_row_of_inv inv
  obtain ⟨t, effect⟩ := exists_effect_of_row code row
  exact ⟨t, (engineStep_of_decodeSeq code).trans effect.exec_eq⟩

theorem exists_advance (inv : s.inv = true) : ∃ t, advance s = .next t := by
  rw [advance, if_neg (by simp [isReserved_of_inv inv])]
  split
  next => exact exists_engineStep inv
  next w onPort =>
    split
    next => exact ⟨_, rfl⟩
    next i legal =>
      split
      next now =>
        obtain ⟨t, effect⟩ := exists_effect_of_decidesNow inv legal now
        exact ⟨t, effect.exec_eq⟩
      next => exact exists_engineStep inv

/-- Settles O47: a reset and a poll answer, and in a state of the invariant so does every instruction a step can run. -/
theorem invariantStatesNeverStop : Obligations.InvariantStatesNeverStop := by
  intro s inv
  unfold step machineStep
  split
  next => exact ⟨_, rfl⟩
  next rest _ =>
    have defined : (s.setInputs rest).isReserved = false := isReserved_of_inv inv
    exact ⟨_, if_neg (by simp [defined])⟩
  next => exact exists_advance ((takeInput_inv s).trans inv)

/-! ### No step enters a reserved code (R53) -/

theorem isReserved_of_decodeSeq (c : BitVec 8) (seq : t.seq = c) (code : ∃ i, decodeSeq c = .ok i) :
    t.isReserved = false :=
  (isReserved_eq_false_iff t).mpr (seq ▸ code)

theorem decodeSeq_retCode (r : Ret) : ∃ i, decodeSeq r.code = .ok i := by
  cases r <;> exact ⟨_, rfl⟩

theorem isReserved_pushed {x : Byte} {r : Ret} {c : BitVec 8} (code : ∃ i, decodeSeq c = .ok i) :
    (s.pushed x r c).isReserved = false := by
  refine isReserved_of_decodeSeq _ (State.pushed_seq s x r c) ?_
  split
  · exact ⟨.parse, rfl⟩
  · exact code

theorem CommandEffect.isReserved_eq_false (h : CommandEffect s i t) (defined : s.isReserved = false) :
    t.isReserved = false := by
  cases h
  case held | badPhase | ended | rdh | rdstat => exact (State.isReserved_congr (by simp)).trans defined
  case init => exact isReserved_of_decodeSeq seqAccept rfl ⟨.accept, rfl⟩
  case limit => exact isReserved_of_decodeSeq seqErr rfl ⟨.err, rfl⟩
  case absorb => exact isReserved_pushed ⟨.accept, rfl⟩
  case final => exact isReserved_of_decodeSeq seqPadOne rfl ⟨.padOne, rfl⟩

theorem EngineEffect.isReserved_eq_false (h : EngineEffect s i t) (defined : s.isReserved = false) :
    t.isReserved = false := by
  cases h
  case wait => exact defined
  case parse => exact isReserved_of_decodeSeq (seqExpand 16#6) rfl ⟨.expandLow 16#6, rfl⟩
  case loadv => exact isReserved_of_decodeSeq (seqRound 0#6) rfl ⟨.round 0#6, rfl⟩
  case feedfwd => exact isReserved_of_decodeSeq _ rfl (decodeSeq_retCode s.ret)
  case padOne => exact isReserved_pushed ⟨.padZero, rfl⟩
  case padZeroEnds => exact isReserved_of_decodeSeq (seqPadLen 0#3) rfl ⟨.padLen 0#3, rfl⟩
  case padZero => exact isReserved_pushed ⟨.padZero, rfl⟩
  case padLen k _ =>
    refine isReserved_pushed ?_
    split
    · exact (isReserved_eq_false_iff s).mp defined
    · exact ⟨_, decodeSeq_seqPadLen _⟩
  case expand k inRange _ =>
    obtain ⟨j, next, -⟩ := decodeSeq_expand_successor k inRange
    exact isReserved_of_decodeSeq _ rfl ⟨j, next⟩
  case round k =>
    obtain ⟨j, next, -⟩ := decodeSeq_round_successor k
    exact isReserved_of_decodeSeq _ rfl ⟨j, next⟩

/-- Every outcome in a state with a defined code has a defined code. -/
theorem Effect.isReserved_eq_false (h : Effect s i t) (defined : s.isReserved = false) : t.isReserved = false := by
  obtain h | h := h <;> exact h.isReserved_eq_false defined

/-- Settles O6: a reset goes to IDLE, and any other step is taken at a defined code and leads to one. -/
theorem noStepEntersAReservedCode : Obligations.NoStepEntersAReservedCode := by
  intro s t h
  obtain ⟨rest, -, rfl⟩ | ⟨rest, -, defined, rfl⟩ | ⟨-, -, adv⟩ := step_next h
  · exact isReserved_of_decodeSeq seqIdle rfl ⟨.idle, rfl⟩
  · exact (State.isReserved_congr rfl).trans defined
  · obtain ⟨defined, ⟨_, _, -, -, rfl⟩ | ⟨_, _, -, -, -, run⟩ | ⟨_, -, run, -⟩⟩ := advance_next adv
    · exact (State.isReserved_congr rfl).trans defined
    · exact (Effect.of_exec run).isReserved_eq_false defined
    · exact (Effect.of_exec run).isReserved_eq_false defined

end

end Sys2Proof.Machine

/-! Termination (70_reset_and_hazards.md R156). `stepsToRest` is how many engine steps a state of the invariant is from a rest
code; each engine step at a busy code lowers it by exactly 1, and it is at most 303, at PAD_ONE with N = 56. -/

namespace Sys2Proof.Machine

/-- The engine steps from FEEDFWD's successor on: none at ACCEPT and DONE; at PAD_ZERO with an empty buffer 56 zero bytes, the
move to PAD_LEN, 8 bytes of the length and a block. -/
def Ret.stepsAfter : Ret → Nat
  | .accept => 0
  | .padZero => 180
  | .done => 0

/-- The engine steps to a rest code from the code of the instruction, with N = `n` and RET = `r`. -/
def stepsFrom (n : Nat) (r : Ret) : Instr → Nat
  | .padOne => if n ≤ 55 then 180 - n else 359 - n
  | .padZero => if n ≤ 56 then 180 - n else 359 - n
  | .padLen i => 123 - i.toNat
  | .parse => 115 + r.stepsAfter
  | .expandLow t | .expandHigh t => 130 - t.toNat + r.stepsAfter
  | .loadv => 66 + r.stepsAfter
  | .round t => 65 - t.toNat + r.stepsAfter
  | .feedfwd => 1 + r.stepsAfter
  | _ => 0

/-- The engine steps to a rest code. -/
def State.stepsToRest (s : State) : Nat :=
  match decodeSeq s.seq with
  | .ok i => stepsFrom s.n.toNat s.ret i
  | .error _ => 0

section
variable {s t : State} {i : Instr}

theorem stepsToRest_of_decodeSeq (code : decodeSeq s.seq = .ok i) : s.stepsToRest = stepsFrom s.n.toNat s.ret i := by
  rw [State.stepsToRest, code]

theorem Ret.stepsAfter_le (r : Ret) : r.stepsAfter ≤ 180 := by
  cases r <;> decide

/-- The bound over the rows of the invariant. -/
theorem stepsToRest_le (inv : s.inv = true) : s.stepsToRest ≤ 303 := by
  obtain ⟨i, code, -, row⟩ := exists_row_of_inv inv
  have after := s.ret.stepsAfter_le
  rw [stepsToRest_of_decodeSeq code]
  cases i
  case expandLow t =>
    obtain ⟨low, -⟩ : 16 ≤ t.toNat ∧ t.toNat ≤ 31 := of_decide_eq_true (wellFormed_of_decodeSeq code)
    simp only [stepsFrom]
    omega
  case expandHigh t =>
    have high : 32 ≤ t.toNat := of_decide_eq_true (wellFormed_of_decodeSeq code)
    simp only [stepsFrom]
    omega
  case padOne | padZero =>
    simp only [stepsFrom]
    split <;> omega
  all_goals
    simp only [stepsFrom]
    omega

/-- A busy code is at least one step from rest. -/
theorem isRest_of_stepsToRest_eq_zero (inv : s.inv = true) (zero : s.stepsToRest = 0) : s.isRest = true := by
  obtain ⟨i, code, -, row⟩ := exists_row_of_inv inv
  rw [stepsToRest_of_decodeSeq code] at zero
  have own := encode_of_decodeSeq_eq_ok code
  cases i
  case idle | accept | done | err =>
    obtain own := CodeWord.seq8.inj own
    exact (isRest_iff s).mpr (by simp [← own])
  case init | absorb | final | rdh | rdstat => cases own
  case padOne | padZero =>
    obtain ⟨room, -⟩ := row
    simp only [stepsFrom] at zero
    split at zero <;> omega
  case padLen k | round k | expandLow k | expandHigh k =>
    have := k.isLt
    simp only [stepsFrom] at zero
    omega
  all_goals simp [stepsFrom] at zero

theorem stepsToRest_of_isRest (rest : s.isRest = true) : s.stepsToRest = 0 := by
  rcases (isRest_iff s).mp rest with code | code | code | code <;> rw [State.stepsToRest, code] <;> rfl

/-! ### Each step lowers the count -/

/-- A push that fills the buffer has a block before it. -/
theorem stepsToRest_pushed_of_full {x : Byte} {r : Ret} {c : BitVec 8} (full : s.n = 63#7) :
    (s.pushed x r c).stepsToRest = 115 + r.stepsAfter := by
  have parse : decodeSeq (s.pushed x r c).seq = .ok .parse := by
    rw [State.pushed_seq, if_pos full]
    rfl
  rw [stepsToRest_of_decodeSeq parse, stepsFrom, State.pushed_ret, if_pos full]

theorem stepsToRest_pushed_of_room {x : Byte} {r : Ret} {c : BitVec 8} (room : s.n.toNat < 63) (code : decodeSeq c = .ok i) :
    (s.pushed x r c).stepsToRest = stepsFrom (s.n.toNat + 1) s.ret i := by
  have notFull : s.n ≠ 63#7 := by bv_omega
  have next : decodeSeq (s.pushed x r c).seq = .ok i := by rw [State.pushed_seq, if_neg notFull, code]
  have count : (s.n + 1#7).toNat = s.n.toNat + 1 := by bv_omega
  rw [stepsToRest_of_decodeSeq next, State.pushed_n, count, State.pushed_ret, if_neg notFull]

theorem stepsToRest_padOne (code : decodeSeq s.seq = .ok .padOne) (room : s.n.toNat < 64) :
    (s.pushed 0x80#8 .padZero seqPadZero).stepsToRest + 1 = s.stepsToRest := by
  rw [stepsToRest_of_decodeSeq code]
  by_cases full : s.n = 63#7
  · rw [stepsToRest_pushed_of_full full, full]
    rfl
  · have below : s.n.toNat < 63 := by bv_omega
    rw [stepsToRest_pushed_of_room (i := .padZero) below rfl]
    simp only [stepsFrom]
    split_ifs <;> omega

theorem stepsToRest_padZero (code : decodeSeq s.seq = .ok .padZero) (not56 : s.n ≠ 56#7) (room : s.n.toNat < 64) :
    (s.pushed 0x00#8 .padZero seqPadZero).stepsToRest + 1 = s.stepsToRest := by
  rw [stepsToRest_of_decodeSeq code]
  by_cases full : s.n = 63#7
  · rw [stepsToRest_pushed_of_full full, full]
    rfl
  · have below : s.n.toNat < 63 := by bv_omega
    have ne56 : s.n.toNat ≠ 56 := by bv_omega
    rw [stepsToRest_pushed_of_room (i := .padZero) below rfl]
    simp only [stepsFrom]
    split_ifs <;> omega

theorem stepsToRest_padLen {k : BitVec 3} (code : decodeSeq s.seq = .ok (.padLen k)) (atByte : s.n.toNat = 56 + k.toNat) :
    (s.pushed (lenByte s.len k) .done (if k = 7#3 then s.seq else seqPadLen (k + 1#3))).stepsToRest + 1 =
      s.stepsToRest := by
  rw [stepsToRest_of_decodeSeq code]
  by_cases last : k = 7#3
  · have full : s.n = 63#7 := by bv_omega
    rw [stepsToRest_pushed_of_full full, last]
    rfl
  · have below : s.n.toNat < 63 := by bv_omega
    have succ : (k + 1#3).toNat = k.toNat + 1 := by bv_omega
    rw [stepsToRest_pushed_of_room (i := .padLen (k + 1#3)) below (by rw [if_neg last, decodeSeq_seqPadLen])]
    simp only [stepsFrom, succ]
    omega

/-- An outcome that fills no buffer, from the code it leads to. -/
theorem stepsToRest_add_one_of_seq (c : BitVec 8) (seq : t.seq = c) (code : decodeSeq c = .ok i) {m : Nat}
    (count : stepsFrom t.n.toNat t.ret i + 1 = m) : t.stepsToRest + 1 = m := by
  rw [stepsToRest_of_decodeSeq (by rw [seq, code]), count]

theorem stepsFrom_of_retCode {r : Ret} (code : decodeSeq r.code = .ok i) : stepsFrom 0 r i = r.stepsAfter := by
  cases r <;> cases code <;> rfl

theorem stepsToRest_feedfwd (code : decodeSeq s.seq = .ok .feedfwd) (empty : s.n = 0#7) :
    ((s.setH (addWords s.h s.v)).setSeq s.ret.code).stepsToRest + 1 = s.stepsToRest := by
  obtain ⟨i, next⟩ := decodeSeq_retCode s.ret
  refine stepsToRest_add_one_of_seq s.ret.code rfl next ?_
  simp only [State.setSeq_n, State.setH_n, empty, State.setSeq_ret, State.setH_ret, BitVec.toNat_ofNat, Nat.zero_mod]
  rw [stepsFrom_of_retCode next, stepsToRest_of_decodeSeq code, stepsFrom, Nat.add_comm]

/-- The count at the code after EXPAND(k), whichever row it is in. -/
theorem stepsFrom_expand_successor {k : BitVec 6} (inRange : 16 ≤ k.toNat) {n : Nat} {r : Ret}
    (next : decodeSeq (if k = 63#6 then seqLoadv else seqExpand (k + 1#6)) = .ok i) :
    stepsFrom n r i + 1 = 130 - k.toNat + r.stepsAfter := by
  by_cases last : k = 63#6
  · rw [if_pos last] at next
    cases next
    rw [last]
    simp only [stepsFrom, BitVec.toNat_ofNat]
    omega
  · have succ : (k + 1#6).toNat = k.toNat + 1 := by bv_omega
    have range := k.isLt
    rw [if_neg last] at next
    by_cases low : (k + 1#6).toNat ≤ 31
    · rw [decodeSeq_seqExpand_low _ (by omega) low] at next
      cases next
      simp only [stepsFrom, succ]
      omega
    · rw [decodeSeq_seqExpand_high _ (by omega)] at next
      cases next
      simp only [stepsFrom, succ]
      omega

theorem stepsFrom_round_successor {k : BitVec 6} {n : Nat} {r : Ret}
    (next : decodeSeq (if k = 63#6 then seqFeedfwd else seqRound (k + 1#6)) = .ok i) :
    stepsFrom n r i + 1 = 65 - k.toNat + r.stepsAfter := by
  by_cases last : k = 63#6
  · rw [if_pos last] at next
    cases next
    rw [last]
    simp only [stepsFrom, BitVec.toNat_ofNat]
    omega
  · have succ : (k + 1#6).toNat = k.toNat + 1 := by bv_omega
    have range := k.isLt
    rw [if_neg last, decodeSeq_seqRound] at next
    cases next
    simp only [stepsFrom, succ]
    omega

/-- A micro-operation at a busy code of the invariant is one step nearer to rest. -/
theorem EngineEffect.stepsToRest_add_one (h : EngineEffect s i t) (code : decodeSeq s.seq = .ok i) (inv : s.inv = true)
    (busy : s.isRest = false) : t.stepsToRest + 1 = s.stepsToRest := by
  have own := encode_of_decodeSeq_eq_ok code
  have row := ((inv_iff_of_decodeSeq code).mp inv).2
  cases h
  case wait rest =>
    have atRest : s.isRest = true := (isRest_iff s).mpr (by
      rcases rest with rfl | rfl | rfl | rfl <;> simp [← CodeWord.seq8.inj own])
    simp [atRest] at busy
  case padOne room => exact stepsToRest_padOne code room
  case padZeroEnds at56 =>
    refine stepsToRest_add_one_of_seq _ (State.setSeq_seq _ _) (decodeSeq_seqPadLen 0#3) ?_
    rw [stepsToRest_of_decodeSeq code, at56]
    rfl
  case padZero not56 room => exact stepsToRest_padZero code not56 room
  case padLen k _ =>
    obtain ⟨atByte, -⟩ := row
    exact stepsToRest_padLen code atByte
  case feedfwd =>
    obtain ⟨empty, -⟩ := row
    exact stepsToRest_feedfwd code empty
  case parse =>
    refine stepsToRest_add_one_of_seq _ (State.setSeq_seq _ _) (decodeSeq_seqExpand_low 16#6 (by decide) (by decide)) ?_
    simp only [stepsToRest_of_decodeSeq code, stepsFrom, State.setSeq_ret, State.setN_ret, State.setW_ret,
      BitVec.toNat_ofNat]
    omega
  case loadv =>
    refine stepsToRest_add_one_of_seq _ (State.setSeq_seq _ _) (decodeSeq_seqRound 0#6) ?_
    simp only [stepsToRest_of_decodeSeq code, stepsFrom, State.setSeq_ret, State.setV_ret, BitVec.toNat_ofNat]
    omega
  case expand k inRange own =>
    obtain ⟨j, next, -⟩ := decodeSeq_expand_successor k inRange
    have count : stepsFrom s.n.toNat s.ret i = 130 - k.toNat + s.ret.stepsAfter := by rcases own with rfl | rfl <;> rfl
    rw [stepsToRest_of_decodeSeq code, count]
    exact stepsToRest_add_one_of_seq _ (State.setSeq_seq _ _) next (stepsFrom_expand_successor inRange next)
  case round k =>
    obtain ⟨j, next, -⟩ := decodeSeq_round_successor k
    rw [stepsToRest_of_decodeSeq code]
    exact stepsToRest_add_one_of_seq _ (State.setSeq_seq _ _) next (stepsFrom_round_successor next)

/-! ### The run to a rest code -/

theorem quiet_congr (port : t.port = s.port) (inputs : t.inputs = s.inputs) : t.quiet = s.quiet := by
  rw [State.quiet, State.quiet, port, inputs]

/-- Undisturbed, a state of the invariant is at rest after `stepsToRest` steps, which touch neither the port nor the
responses. -/
theorem run_stepsToRest (k : Nat) : ∀ {s : State}, s.stepsToRest = k → s.inv = true → s.quiet = true →
    ∃ t, core.run k s = .next t ∧ t.isRest = true ∧ t.port = s.port ∧ t.responses = s.responses := by
  induction k with
  | zero => exact fun {s} zero inv _ => ⟨s, rfl, isRest_of_stepsToRest_eq_zero inv zero, rfl, rfl⟩
  | succ k ih =>
    intro s count inv quiet
    obtain ⟨i, code, -, row⟩ := exists_row_of_inv inv
    obtain ⟨u, effect⟩ := exists_effect_of_row code row
    have notRest : s.isRest = false := by
      by_contra rest
      rw [stepsToRest_of_isRest (by simpa using rest)] at count
      cases count
    have busy : s.isBusy = true := by simp [State.isBusy, notRest, isReserved_of_inv inv]
    have next : step s = .next u := by rw [step_of_quiet busy quiet, engineStep_of_decodeSeq code, effect.exec_eq]
    obtain ⟨port, responses⟩ := effect.port_eq
    have inputs := (Effect.engine effect).inputs_eq
    obtain ⟨t, run, rest, port', responses'⟩ := ih (by have := effect.stepsToRest_add_one code inv notRest; omega)
      (effect.inv code inv) ((quiet_congr port inputs).trans quiet)
    exact ⟨t, (run_succ_of_next k next).trans run, rest, port'.trans port, responses'.trans responses⟩

/-- Settles O49: the run of `stepsToRest` steps, which are at most 303. -/
theorem busyEngineRestsWithin303Steps : Obligations.BusyEngineRestsWithin303Steps := by
  intro s inv _ quiet
  obtain ⟨t, run, rest, port, responses⟩ := run_stepsToRest _ rfl inv quiet
  exact ⟨_, stepsToRest_le inv, t, run, rest, port, responses⟩

end

end Sys2Proof.Machine

/-! The processing of a block (43_message_schedule.md R95, R96, 44_compression.md R100 to R103): the schedule's recurrence, and
the run of the 115 micro-operations from PARSE against the closed forms `sched`, `roundsUpTo` and `compress`. -/

namespace Sys2Proof.Machine

/-! ### Words of the schedule below an index -/

/-- The two schedule files have the same words at the indices below `n`. -/
def AgreeBelow (n : Nat) (w w' : Vector Word 64) : Prop := ∀ (j : Nat) (hj : j < 64), j < n → w[j] = w'[j]

theorem AgreeBelow.trans {n : Nat} {w w' w'' : Vector Word 64} (h : AgreeBelow n w w') (h' : AgreeBelow n w' w'') :
    AgreeBelow n w w'' :=
  fun j hj below => (h j hj below).trans (h' j hj below)

theorem AgreeBelow.mono {n m : Nat} {w w' : Vector Word 64} (h : AgreeBelow n w w') (le : m ≤ n) : AgreeBelow m w w' :=
  fun j hj below => h j hj (below.trans_le le)

theorem AgreeBelow.eq {w w' : Vector Word 64} (h : AgreeBelow 64 w w') : w = w' :=
  Vector.ext fun j hj => h j hj hj

/-- The four taps of EXPAND(t) are below `t` (R95). -/
theorem AgreeBelow.expandWord_eq {w w' : Vector Word 64} {t : BitVec 6} (h : AgreeBelow t.toNat w w') (inRange : 16 ≤ t.toNat) :
    expandWord w t = expandWord w' t := by
  have tap {d : BitVec 6} (pos : 0 < d.toNat) (le : d.toNat ≤ 16) :
      w[(t - d).toNat]'(t - d).isLt = w'[(t - d).toNat]'(t - d).isLt := h _ _ (by bv_omega)
  rw [expandWord, expandWord, tap (by decide) (by decide), tap (by decide) (by decide), tap (by decide) (by decide),
    tap (by decide) (by decide)]

theorem AgreeBelow.set {w w' : Vector Word 64} {t : Nat} (ht : t < 64) {x x' : Word} (h : AgreeBelow t w w') (same : x = x') :
    AgreeBelow (t + 1) (w.set t x ht) (w'.set t x' ht) := by
  intro j hj below
  rw [Vector.getElem_set, Vector.getElem_set]
  split
  · exact same
  · exact h j hj (by omega)

/-- A write at or above the index leaves the words below it. -/
theorem agreeBelow_set {n t : Nat} (ht : t < 64) (w : Vector Word 64) (x : Word) (le : n ≤ t) : AgreeBelow n w (w.set t x ht) :=
  fun _ hj below => (Vector.getElem_set_ne ht hj (by omega)).symm

theorem agreeBelow_parseWords (b : Vector Byte 64) (w w' : Vector Word 64) :
    AgreeBelow 16 (parseWords b w) (parseWords b w') :=
  fun _ _ below => (getElem_parseWords_of_lt_16 b w below).trans (getElem_parseWords_of_lt_16 b w' below).symm

/-! ### The expansions, from any schedule file -/

/-- The schedule file after `k` expansions, from EXPAND(16) on. -/
def expandsUpTo (w : Vector Word 64) : Nat → Vector Word 64
  | 0 => w
  | k + 1 =>
    let t := BitVec.ofNat 6 (16 + k)
    (expandsUpTo w k).set t.toNat (expandWord (expandsUpTo w k) t) t.isLt

theorem schedUpTo_eq_expandsUpTo (b : Vector Byte 64) (k : Nat) :
    schedUpTo b k = expandsUpTo (parseWords b (Vector.replicate 64 0#32)) k := by
  induction k with
  | zero => rfl
  | succ k ih => rw [schedUpTo, expandsUpTo, ih]

theorem toNat_expandIndex {k : Nat} (hk : k < 48) : (BitVec.ofNat 6 (16 + k)).toNat = 16 + k :=
  Nat.mod_eq_of_lt (by omega)

/-- What was in W before PARSE has no influence: the first sixteen words determine the expansions. -/
theorem AgreeBelow.expandsUpTo {w w' : Vector Word 64} (h : AgreeBelow 16 w w') {k : Nat} (hk : k ≤ 48) :
    AgreeBelow (16 + k) (expandsUpTo w k) (expandsUpTo w' k) := by
  induction k with
  | zero => exact h
  | succ k ih =>
    have index := toNat_expandIndex hk
    have before := ih (by omega)
    rw [← index] at before
    exact (before.set (BitVec.ofNat 6 (16 + k)).isLt (before.expandWord_eq (by omega))).mono (by omega)

/-- An expansion leaves the words before it. -/
theorem agreeBelow_expandsUpTo_add (w : Vector Word 64) (k : Nat) {d : Nat} (hd : k + d ≤ 48) :
    AgreeBelow (16 + k) (expandsUpTo w k) (expandsUpTo w (k + d)) := by
  induction d with
  | zero => exact fun _ _ _ => rfl
  | succ d ih =>
    have index := toNat_expandIndex (k := k + d) (by omega)
    exact (ih (by omega)).trans (agreeBelow_set (BitVec.ofNat 6 (16 + (k + d))).isLt _ _ (by omega))

/-- The recurrence of R96, once all 48 words are in place. -/
theorem getElem_expandsUpTo (w : Vector Word 64) (t : BitVec 6) (inRange : 16 ≤ t.toNat) :
    (expandsUpTo w 48)[t.toNat]'t.isLt = expandWord (expandsUpTo w 48) t := by
  obtain ⟨k, index⟩ := Nat.exists_eq_add_of_le inRange
  have hk : k < 48 := by have := t.isLt; omega
  have before : AgreeBelow t.toNat (expandsUpTo w k) (expandsUpTo w 48) := by
    have := agreeBelow_expandsUpTo_add w k (d := 48 - k) (by omega)
    rwa [← index, show k + (48 - k) = 48 by omega] at this
  have upTo : AgreeBelow (16 + (k + 1)) (expandsUpTo w (k + 1)) (expandsUpTo w 48) := by
    have := agreeBelow_expandsUpTo_add w (k + 1) (d := 48 - (k + 1)) (by omega)
    rwa [show k + 1 + (48 - (k + 1)) = 48 by omega] at this
  have name : BitVec.ofNat 6 (16 + k) = t := by rw [← index, BitVec.ofNat_toNat, BitVec.setWidth_eq]
  calc (expandsUpTo w 48)[t.toNat]'t.isLt
      = (expandsUpTo w (k + 1))[t.toNat]'t.isLt := (upTo _ _ (by omega)).symm
    _ = expandWord (expandsUpTo w k) t := by simp only [expandsUpTo, name, Vector.getElem_set_self]
    _ = expandWord (expandsUpTo w 48) t := before.expandWord_eq inRange

/-- Settles O53: no expansion writes the first sixteen words, and the others meet `getElem_expandsUpTo`. -/
theorem scheduleMeetsItsRecurrence : Obligations.ScheduleMeetsItsRecurrence := by
  intro b
  simp only [sched, schedUpTo_eq_expandsUpTo]
  refine ⟨fun k => ?_, fun t inRange => ?_⟩
  · have kept := agreeBelow_expandsUpTo_add (parseWords b (Vector.replicate 64 0#32)) 0 (d := 48) (by omega)
    rw [Vector.getElem?_eq_getElem (by omega), ← kept k.toNat (by omega) k.isLt, expandsUpTo,
      getElem_parseWords_of_lt_16 _ _ k.isLt, BitVec.ofNat_toNat, BitVec.setWidth_eq]
  · rw [Vector.getElem?_eq_getElem t.isLt, getElem_expandsUpTo _ t inRange]

/-- The schedule of a block, from a schedule file with anything in it. -/
theorem expandsUpTo_parseWords (b : Vector Byte 64) (w : Vector Word 64) : expandsUpTo (parseWords b w) 48 = sched b := by
  rw [sched, schedUpTo_eq_expandsUpTo]
  exact ((agreeBelow_parseWords b w _).expandsUpTo le_rfl).eq

/-! ### Undisturbed engine steps -/

/-- Nothing interferes with the engine at a busy code: what is on the port is a command that waits, and a command to come waits
for the port to be free. -/
structure State.Calm (s : State) : Prop where
  settled : s.inputs = [] ∨ ∃ w rest, s.inputs = .command w :: rest ∧ s.port ≠ none
  held : ∀ w, s.port = some w → waits w = true

section
variable {s t u : State} {i : Instr}

theorem calm_of_quiet (quiet : s.quiet = true) : s.Calm := by
  obtain ⟨noInputs, held⟩ := quiet_iff.mp quiet
  exact ⟨.inl noInputs, held⟩

theorem State.Calm.of_eq (calm : s.Calm) (inputs : t.inputs = s.inputs) (port : t.port = s.port) : t.Calm :=
  ⟨by rw [inputs, port]; exact calm.settled, by rw [port]; exact calm.held⟩

theorem step_eq_advance_of_calm (calm : s.Calm) : step s = advance s := by
  obtain noInputs | ⟨w, rest, next, taken⟩ := calm.settled
  · exact step_of_no_inputs noInputs
  · obtain ⟨p, onPort⟩ := Option.ne_none_iff_exists'.mp taken
    exact step_of_command_waiting next onPort

/-- A command that waits leaves the step of host or engine to the engine (R110 test 3, R153). -/
theorem advance_of_isBusy (busy : s.isBusy = true) (held : ∀ w, s.port = some w → waits w = true) :
    advance s = engineStep s := by
  obtain ⟨notRest, defined⟩ : s.isRest = false ∧ s.isReserved = false := by simpa [State.isBusy] using busy
  rw [advance, if_neg (by simp [defined])]
  split
  next => rfl
  next w onPort =>
    obtain ⟨i, legal, notRdstat⟩ := waits_iff.mp (held w onPort)
    simp [legal, State.decidesNow, notRdstat, notRest]

/-- A code from PARSE on that decodes is busy. -/
theorem isBusy_of_seq {c : BitVec 8} (seq : s.seq = c) (code : decodeSeq c = .ok i) (busyCode : 4 ≤ c.toNat) :
    s.isBusy = true := by
  have defined : s.isReserved = false := (isReserved_eq_false_iff s).mpr ⟨i, by rw [seq, code]⟩
  have notRest : s.isRest = false := by
    rw [State.isRest, seq, decide_eq_false_iff_not]
    omega
  simp [State.isBusy, defined, notRest]

/-- The micro-operation of the code in SEQ, undisturbed. -/
theorem step_of_calm {c : BitVec 8} (calm : s.Calm) (seq : s.seq = c) (code : decodeSeq c = .ok i)
    (busyCode : 4 ≤ c.toNat) : step s = exec i s := by
  rw [step_eq_advance_of_calm calm, advance_of_isBusy (isBusy_of_seq seq code busyCode) calm.held,
    engineStep_of_decodeSeq (by rw [seq, code])]

theorem run_snoc {k : Nat} (run : core.run k s = .next t) (next : step t = .next u) : core.run (k + 1) s = .next u := by
  rw [run_add k 1 run, run_succ_of_next 0 next, run_zero]

/-! ### The 115 micro-operations -/

/-- The code after `k` expansions from EXPAND(16) on. -/
def scheduleCode (k : Nat) : BitVec 8 := if k = 48 then seqLoadv else seqExpand (BitVec.ofNat 6 (16 + k))

/-- The code after `k` rounds. -/
def roundsCode (k : Nat) : BitVec 8 := if k = 64 then seqFeedfwd else seqRound (BitVec.ofNat 6 k)

theorem ofNat_add_one_eq (k : Nat) : BitVec.ofNat 6 k + 1#6 = BitVec.ofNat 6 (k + 1) := BitVec.ofNat_add_ofNat k 1

theorem step_expand {k : Nat} (hk : k < 48) (calm : s.Calm) (seq : s.seq = scheduleCode k) (w : Vector Word 64)
    (upTo : s.w = expandsUpTo w k) :
    step s = .next { s with w := expandsUpTo w (k + 1), seq := scheduleCode (k + 1) } := by
  have index := toNat_expandIndex hk
  have before : scheduleCode k = seqExpand (BitVec.ofNat 6 (16 + k)) := if_neg (by omega)
  have after : (if BitVec.ofNat 6 (16 + k) = 63#6 then seqLoadv else seqExpand (BitVec.ofNat 6 (16 + k) + 1#6)) =
      scheduleCode (k + 1) := by
    have last : BitVec.ofNat 6 (16 + k) = 63#6 ↔ k + 1 = 48 := by
      rw [← BitVec.toNat_inj, index, BitVec.toNat_ofNat]
      omega
    rw [scheduleCode, ofNat_add_one_eq, if_congr last rfl rfl, Nat.add_assoc]
  obtain ⟨i, code, meaning⟩ : ∃ i, decodeSeq (scheduleCode k) = .ok i ∧ exec i s = s.expand (BitVec.ofNat 6 (16 + k)) := by
    rw [before]
    by_cases low : (BitVec.ofNat 6 (16 + k)).toNat ≤ 31
    · exact ⟨_, decodeSeq_seqExpand_low _ (by omega) low, rfl⟩
    · exact ⟨_, decodeSeq_seqExpand_high _ (by omega), rfl⟩
  have busyCode : 4 ≤ (scheduleCode k).toNat := by
    rw [before, seqExpand]
    bv_omega
  rw [step_of_calm calm seq code busyCode, meaning, expand_of_16_le s (by omega), after, upTo]
  simp only [State.writeW, State.setW, State.setSeq, upTo, expandsUpTo]

theorem run_expands (calm : s.Calm) (seq : s.seq = seqExpand 16#6) {k : Nat} (hk : k ≤ 48) :
    core.run k s = .next { s with w := expandsUpTo s.w k, seq := scheduleCode k } := by
  induction k with
  | zero =>
    rw [scheduleCode, if_neg (by decide), ← seq]
    rfl
  | succ k ih =>
    refine run_snoc (ih (by omega)) ?_
    exact step_expand (s := { s with w := expandsUpTo s.w k, seq := scheduleCode k }) hk (calm.of_eq rfl rfl) rfl s.w rfl

theorem step_round {k : Nat} {h : Vector Word 8} (hk : k < 64) (calm : s.Calm) (seq : s.seq = roundsCode k)
    (upTo : s.v = roundsUpTo h s.w k) :
    step s = .next { s with v := roundsUpTo h s.w (k + 1), seq := roundsCode (k + 1) } := by
  have before : roundsCode k = seqRound (BitVec.ofNat 6 k) := if_neg (by omega)
  have after : (if BitVec.ofNat 6 k = 63#6 then seqFeedfwd else seqRound (BitVec.ofNat 6 k + 1#6)) =
      roundsCode (k + 1) := by
    have last : BitVec.ofNat 6 k = 63#6 ↔ k + 1 = 64 := by
      rw [← BitVec.toNat_inj, BitVec.toNat_ofNat, BitVec.toNat_ofNat]
      omega
    rw [roundsCode, ofNat_add_one_eq, if_congr last rfl rfl]
  have code : decodeSeq (roundsCode k) = .ok (.round (BitVec.ofNat 6 k)) := by rw [before, decodeSeq_seqRound]
  have busyCode : 4 ≤ (roundsCode k).toNat := by
    rw [before, seqRound]
    bv_omega
  rw [step_of_calm calm seq code busyCode, exec_round, after, upTo]
  rfl

theorem run_rounds (calm : s.Calm) (seq : s.seq = seqRound 0#6) {k : Nat} (hk : k ≤ 64) :
    core.run k s = .next { s with v := roundsUpTo s.v s.w k, seq := roundsCode k } := by
  induction k with
  | zero =>
    rw [roundsCode, if_neg (by decide), ← seq]
    rfl
  | succ k ih => exact run_snoc (ih (by omega)) (step_round hk (calm.of_eq rfl rfl) rfl rfl)

theorem step_parse (calm : s.Calm) (seq : s.seq = seqParse) :
    step s = .next { s with w := parseWords s.b s.w, n := 0#7, seq := seqExpand 16#6 } :=
  (step_of_calm calm seq (i := .parse) rfl (by decide)).trans (exec_parse s)

theorem step_loadv (calm : s.Calm) (seq : s.seq = seqLoadv) :
    step s = .next { s with v := s.h, seq := seqRound 0#6 } :=
  (step_of_calm calm seq (i := .loadv) rfl (by decide)).trans (exec_loadv s)

theorem step_feedfwd (calm : s.Calm) (seq : s.seq = seqFeedfwd) :
    step s = .next { s with h := addWords s.h s.v, seq := s.ret.code } :=
  (step_of_calm calm seq (i := .feedfwd) rfl (by decide)).trans (exec_feedfwd s)

/-- What a block's processing leaves (R103). -/
def State.blockDone (s : State) : State :=
  { s with h := compress s.h s.b, v := roundsUpTo s.h (sched s.b) 64, w := sched s.b, n := 0#7, seq := s.ret.code }

/-- PARSE, 48 expansions, LOADV, 64 rounds and FEEDFWD. -/
theorem run_block (seq : s.seq = seqParse) (calm : s.Calm) : core.run 115 s = .next s.blockDone := by
  let parsed : State := { s with w := parseWords s.b s.w, n := 0#7, seq := seqExpand 16#6 }
  let expanded : State := { parsed with w := expandsUpTo parsed.w 48, seq := seqLoadv }
  let loaded : State := { expanded with v := s.h, seq := seqRound 0#6 }
  let rounded : State := { loaded with v := roundsUpTo s.h expanded.w 64, seq := seqFeedfwd }
  have parse : core.run 1 s = .next parsed := run_snoc (run_zero s) (step_parse calm seq)
  have expand : core.run 48 parsed = .next expanded := run_expands (s := parsed) (calm.of_eq rfl rfl) rfl le_rfl
  have load : core.run 1 expanded = .next loaded :=
    run_snoc (run_zero expanded) (step_loadv (s := expanded) (calm.of_eq rfl rfl) rfl)
  have rounds : core.run 64 loaded = .next rounded := run_rounds (s := loaded) (calm.of_eq rfl rfl) rfl le_rfl
  have feed : core.run 1 rounded = .next s.blockDone := by
    refine run_snoc (run_zero rounded) ((step_feedfwd (s := rounded) (calm.of_eq rfl rfl) rfl).trans ?_)
    simp only [rounded, loaded, expanded, parsed, State.blockDone, compress, expandsUpTo_parseWords]
  calc core.run 115 s = core.run 114 parsed := run_add 1 114 parse
    _ = core.run 66 expanded := run_add 48 66 expand
    _ = core.run 65 loaded := run_add 1 65 load
    _ = core.run 1 rounded := run_add 64 1 rounds
    _ = .next s.blockDone := feed

/-- Settles O54: a quiet state is calm. -/
theorem blockProcessingComputesCompress : Obligations.BlockProcessingComputesCompress :=
  fun _ seq quiet => run_block seq (calm_of_quiet quiet)

end

end Sys2Proof.Machine

/-! The padded message (42_padding_and_parse.md R85, R86, R88): its length, its parts, and the byte at each index. -/

namespace Sys2Proof.Machine

/-- The zero bytes fill the last block but for the message, 0x80 and the length (R85, R86). -/
theorem add_zeroCount (l : Nat) : l + 1 + zeroCount l + 8 = 64 * nblocks l := by
  unfold zeroCount nblocks
  omega

theorem zeroCount_lt (l : Nat) : zeroCount l < 64 := by
  unfold zeroCount
  omega

theorem length_be64 (n : BitVec 64) : (be64 n).length = 8 := rfl

/-- The padded message before its length field. -/
theorem length_padMessage_front (m : List Byte) :
    (m ++ [0x80#8] ++ List.replicate (zeroCount m.length) 0x00#8).length = m.length + 1 + zeroCount m.length := by
  rw [List.length_append, List.length_append, List.length_replicate, List.length_singleton]

theorem length_padMessage (m : List Byte) : (padMessage m).length = 64 * nblocks m.length := by
  rw [padMessage, List.length_append, length_padMessage_front, length_be64, add_zeroCount]

theorem take_padMessage (m : List Byte) : (padMessage m).take (m.length + 1) = m ++ [0x80#8] := by
  have front : (m ++ [0x80#8]).length = m.length + 1 := by simp
  rw [padMessage, List.append_assoc, List.take_append_of_le_length front.ge, ← front, List.take_length]

theorem drop_padMessage (m : List Byte) :
    (padMessage m).drop (64 * nblocks m.length - 8) = be64 (BitVec.ofNat 64 (8 * m.length)) := by
  have front : 64 * nblocks m.length - 8 =
      (m ++ [0x80#8] ++ List.replicate (zeroCount m.length) 0x00#8).length := by
    rw [length_padMessage_front, ← add_zeroCount, Nat.add_sub_cancel]
  rw [front, padMessage, List.drop_left]

/-- The bit count of a message of R88's domain is not truncated. -/
theorem toNat_bitCount {l : Nat} (h : l < 2 ^ 61) : (BitVec.ofNat 64 (8 * l)).toNat = 8 * l :=
  Nat.mod_eq_of_lt (by omega)

/-- Settles O52: the lengths of the parts, and the arithmetic of `nblocks`. -/
theorem paddedMessageIsWholeBlocks : Obligations.PaddedMessageIsWholeBlocks := by
  refine ⟨fun m => ⟨length_padMessage m, Nat.succ_pos _, take_padMessage m, drop_padMessage m, toNat_bitCount⟩, fun l => ?_⟩
  unfold nblocks
  split <;> omega

/-! ### The byte at each index -/

/-- Byte `p` of the padded message. -/
def padByte (m : List Byte) (p : Nat) : Byte := (padMessage m).getD p 0x00#8

theorem getElem_blockOf (m : List Byte) (k : Nat) {j : Nat} (hj : j < 64) : (blockOf m k)[j] = padByte m (64 * k + j) :=
  Vector.getElem_ofFn hj

theorem padByte_of_lt {m : List Byte} {p : Nat} (h : p < m.length) : padByte m p = m[p] := by
  simp [padByte, padMessage, List.getElem?_append, h]

theorem padByte_length (m : List Byte) : padByte m m.length = 0x80#8 := by
  simp [padByte, padMessage]

theorem padByte_zero (m : List Byte) {j : Nat} (h : j < zeroCount m.length) : padByte m (m.length + 1 + j) = 0x00#8 := by
  have front : (m ++ [0x80#8]).length = m.length + 1 := by simp
  rw [padByte, padMessage, List.getD_append _ _ _ _ (by rw [length_padMessage_front]; omega),
    List.getD_append_right _ _ _ _ (by omega), front, Nat.add_sub_cancel_left, List.getD_replicate _ h]

theorem padByte_lenByte (m : List Byte) (i : BitVec 3) :
    padByte m (m.length + 1 + zeroCount m.length + i.toNat) = lenByte (BitVec.ofNat 64 (8 * m.length)) i := by
  have byte : ∀ (n : BitVec 64) (k : BitVec 3), (be64 n).getD k.toNat 0x00#8 = lenByte n k := by
    intro n k
    obtain ⟨⟨k, hk⟩⟩ := k
    interval_cases k <;> rfl
  rw [padByte, padMessage, List.getD_append_right _ _ _ _ (by rw [length_padMessage_front]; omega),
    length_padMessage_front, Nat.add_sub_cancel_left, byte]

end Sys2Proof.Machine

/-! The canonical session (45_driver_commands.md R120 to R122). `Fed m p cs s` says that the first `p` bytes of
the padded message of `m` have been pushed: the whole blocks among them are in H, the others in B, and the commands `cs` are
still to come. A push leads from `p` to `p + 1` in one step, and in 115 more where it fills the buffer. -/

namespace Sys2Proof.Machine

/-! ### The commands to come -/

/-- The host presents this command. -/
def commandEvent (c : Instr) : HostEvent := .command (encode c).toNat

/-- The commands to come, each of which waits while the engine is busy; the first may be on the port already. -/
structure State.Pending (s : State) (cs : List Instr) : Prop where
  wait : ∀ c ∈ cs, ∃ p, neededPhase c = some p
  ahead : (s.port = none ∧ s.inputs = cs.map commandEvent) ∨
    ∃ c rest, cs = c :: rest ∧ s.port = some (encode c).toNat ∧ s.inputs = rest.map commandEvent

section
variable {s t u : State} {c : Instr} {cs : List Instr}

theorem decodeCommand_encode (command : c = .init ∨ ∃ p, neededPhase c = some p) :
    decodeCommand (encode c).toNat = .ok c := by
  rw [decodeCommand_eq_ok_iff]
  cases c
  case init | absorb | final | rdh => exact ⟨_, rfl, rfl⟩
  all_goals simp [neededPhase] at command

theorem waits_encode {p : BitVec 8} (needs : neededPhase c = some p) : waits (encode c).toNat = true := by
  refine waits_iff.mpr ⟨c, decodeCommand_encode (.inr ⟨p, needs⟩), ?_⟩
  rintro rfl
  cases needs

/-- The host's move changes the port and the events to come, and nothing else. -/
theorem takeInput_eq (s : State) :
    s.takeInput = { s with port := s.takeInput.port, inputs := s.takeInput.inputs } := by
  rcases takeInput_cases s with h | ⟨_, _, h⟩ | ⟨_, _, _, _, h⟩ <;> rw [h] <;> rfl

/-- After the host's move the first command to come is on the port. -/
theorem State.Pending.takeInput_cons (pending : s.Pending (c :: cs)) :
    s.takeInput = { s with port := some (encode c).toNat, inputs := cs.map commandEvent } := by
  obtain ⟨free, next⟩ | ⟨d, rest, list, onPort, next⟩ := pending.ahead
  · simp [State.takeInput, next, free, commandEvent, State.setPort, State.setInputs]
  · cases list
    have unchanged : s.takeInput = s := by
      cases cs <;> simp [State.takeInput, next, onPort, commandEvent]
    rw [unchanged, ← onPort, ← next]

theorem State.Pending.takeInput_nil (pending : s.Pending []) : s.takeInput = s := by
  obtain ⟨-, next⟩ | ⟨_, _, list, -, -⟩ := pending.ahead
  · simp [State.takeInput, next]
  · cases list

theorem State.Pending.takeInput (pending : s.Pending cs) : s.takeInput.Pending cs := by
  cases cs with
  | nil =>
    rw [pending.takeInput_nil]
    exact pending
  | cons c cs =>
    rw [pending.takeInput_cons]
    exact ⟨pending.wait, .inr ⟨c, cs, rfl, rfl, rfl⟩⟩

/-- After the host's move nothing interferes with a busy engine. -/
theorem State.Pending.calm (pending : s.Pending cs) : s.takeInput.Calm := by
  cases cs with
  | nil =>
    rw [pending.takeInput_nil]
    obtain ⟨free, next⟩ | ⟨_, _, list, -, -⟩ := pending.ahead
    · exact ⟨.inl next, by simp [free]⟩
    · cases list
  | cons c cs =>
    obtain ⟨p, needs⟩ := pending.wait c (.head cs)
    rw [pending.takeInput_cons]
    refine ⟨?_, fun w onPort => Option.some.inj onPort ▸ waits_encode needs⟩
    cases cs with
    | nil => exact .inl rfl
    | cons d rest => exact .inr ⟨_, _, rfl, Option.some_ne_none _⟩

/-- Only commands come, so the host's move is all a step does before the step of host or engine. -/
theorem State.Pending.step_eq (pending : s.Pending cs) : step s = advance s.takeInput := by
  obtain ⟨-, next⟩ | ⟨_, cs, -, -, next⟩ := pending.ahead <;>
    cases cs <;> simp [step, machineStep, next, commandEvent]

theorem State.Pending.step_takeInput (pending : s.Pending cs) : step s = step s.takeInput := by
  rw [pending.step_eq, step_eq_advance_of_calm pending.calm]

/-- At a rest code the first command to come is decided. -/
theorem State.Pending.step_of_isRest (pending : s.Pending (c :: cs)) (rest : s.isRest = true) :
    step s = exec c { s with port := some (encode c).toNat, inputs := cs.map commandEvent } := by
  have legal := decodeCommand_encode (.inr (pending.wait c (.head cs)))
  rw [pending.step_eq, pending.takeInput_cons]
  exact advance_of_decidesNow (isReserved_of_isRest (s := { s with port := _, inputs := _ }) rest) rfl legal
    (decidesNow_iff.mpr (.inr rest))

theorem State.Pending.not_runEnded (pending : s.Pending (c :: cs)) : s.runEnded = false := by
  obtain ⟨-, next⟩ | ⟨_, _, -, onPort, -⟩ := pending.ahead
  · simp [State.runEnded, next]
  · simp [State.runEnded, onPort]

theorem State.Pending.of_eq (pending : s.Pending cs) (port : t.port = s.port) (inputs : t.inputs = s.inputs) :
    t.Pending cs :=
  ⟨pending.wait, by rw [port, inputs]; exact pending.ahead⟩

theorem run_succ_of_step_eq (k : Nat) (h : step s = step t) : core.run (k + 1) s = core.run (k + 1) t := by
  have h' : core.step s = core.step t := h
  simp only [Host.Core.run, h']

end

/-! ### The bytes pushed so far -/

/-- The first `p` bytes of the padded message have been pushed, and the commands `cs` are to come. -/
structure Fed (m : List Byte) (p : Nat) (cs : List Instr) (s : State) : Prop where
  h : s.h = hashUpTo m (p / 64)
  n : s.n.toNat = p % 64
  b : ∀ (j : Nat) (hj : j < 64), j < p % 64 → s.b[j] = padByte m (64 * (p / 64) + j)
  pending : s.Pending cs

section
variable {m : List Byte} {p : Nat} {cs : List Instr} {s t : State}

theorem Fed.of_eq {cs' : List Instr} (fed : Fed m p cs s) (h : t.h = s.h) (n : t.n = s.n) (b : t.b = s.b)
    (pending : t.Pending cs') : Fed m p cs' t :=
  ⟨h.trans fed.h, by rw [n, fed.n], fun j hj below => by rw [← fed.b j hj below]; simp only [b], pending⟩

theorem Fed.takeInput (fed : Fed m p cs s) : Fed m p cs s.takeInput :=
  fed.of_eq (by rw [takeInput_eq]) (by rw [takeInput_eq]) (by rw [takeInput_eq]) fed.pending.takeInput

/-- The steps for the blocks that fill up from `p` bytes pushed to `q`. -/
def blockSteps (p q : Nat) : Nat := 115 * (q / 64 - p / 64)

/-- The steps from `p` bytes pushed to `q` bytes pushed. -/
def pushSteps (p q : Nat) : Nat := q - p + blockSteps p q

theorem pushSteps_self (p : Nat) : pushSteps p p = 0 := by simp [pushSteps, blockSteps]

theorem pushSteps_succ (p : Nat) : pushSteps p (p + 1) = blockSteps p (p + 1) + 1 := by
  rw [pushSteps, Nat.add_sub_cancel_left, Nat.add_comm]

theorem pushSteps_add {p q r : Nat} (h : p ≤ q) (h' : q ≤ r) : pushSteps p q + pushSteps q r = pushSteps p r := by
  have first : p / 64 ≤ q / 64 := Nat.div_le_div_right h
  have second : q / 64 ≤ r / 64 := Nat.div_le_div_right h'
  unfold pushSteps blockSteps
  omega

/-- A push that does not fill the buffer. -/
theorem Fed.pushed_of_room (fed : Fed m p cs s) (room : p % 64 ≠ 63) (r : Ret) (c : BitVec 8) :
    Fed m (p + 1) cs (s.pushed (padByte m p) r c) := by
  have block : (p + 1) / 64 = p / 64 := by omega
  have index : (p + 1) % 64 = p % 64 + 1 := by omega
  have atN := fed.n
  refine ⟨by rw [block]; exact fed.h, ?_, fun j hj below => ?_, fed.pending.of_eq rfl rfl⟩
  · rw [State.pushed_n, index]
    bv_omega
  · simp only [State.pushed_b, Vector.getElem_setIfInBounds, block, atN]
    split
    next last => rw [← last, Nat.div_add_mod]
    next => exact fed.b j hj (by omega)

/-- A push that fills the buffer has the block in B. -/
theorem Fed.pushed_of_full (fed : Fed m p cs s) (full : p % 64 = 63) (r : Ret) (c : BitVec 8) :
    (s.pushed (padByte m p) r c).b = blockOf m (p / 64) := by
  have atN := fed.n
  refine Vector.ext fun j hj => ?_
  rw [getElem_blockOf m _ hj]
  simp only [State.pushed_b, Vector.getElem_setIfInBounds, atN]
  split
  next last => rw [← last, Nat.div_add_mod]
  next => exact fed.b j hj (by omega)

/-- What the engine leaves while it works: LEN and the responses. -/
structure State.SameLog (s t : State) : Prop where
  len : t.len = s.len
  responses : t.responses = s.responses

theorem State.SameLog.trans {u : State} (h : s.SameLog t) (h' : t.SameLog u) : s.SameLog u :=
  ⟨h'.len.trans h.len, h'.responses.trans h.responses⟩

theorem takeInput_sameLog (s : State) : s.SameLog s.takeInput := by
  constructor <;> rw [takeInput_eq]

/-- The block that a full buffer holds is compressed into H (R103), whatever commands are to come. -/
theorem Fed.run_block (fed : Fed m p cs s) (full : p % 64 = 63) (r : Ret) (c : BitVec 8) :
    ∃ v, core.run 115 (s.pushed (padByte m p) r c) = .next v ∧ Fed m (p + 1) cs v ∧ v.seq = r.code ∧ v.ret = r ∧
      s.SameLog v := by
  let u := s.pushed (padByte m p) r c
  have last : s.n = 63#7 := BitVec.eq_of_toNat_eq (fed.n.trans full)
  have pending : u.Pending cs := fed.pending.of_eq rfl rfl
  have parse : u.takeInput.seq = seqParse := by rw [takeInput_seq, State.pushed_seq, if_pos last]
  have ret : u.takeInput.ret = r := by rw [takeInput_eq, State.pushed_ret, if_pos last]
  have h : u.takeInput.h = hashUpTo m (p / 64) := by rw [takeInput_eq]; exact fed.h
  have b : u.takeInput.b = blockOf m (p / 64) := by rw [takeInput_eq]; exact fed.pushed_of_full full r c
  have block : (p + 1) / 64 = p / 64 + 1 := by omega
  have empty : (p + 1) % 64 = 0 := by omega
  refine ⟨u.takeInput.blockDone, ?_, ⟨?_, ?_, ?_, ?_⟩, ?_, ret,
    (takeInput_sameLog u).len, (takeInput_sameLog u).responses⟩
  · exact (run_succ_of_step_eq 114 pending.step_takeInput).trans (Machine.run_block parse pending.calm)
  · rw [State.blockDone, h, b, block, hashUpTo]
  · rw [empty]
    rfl
  · intro j _ below
    omega
  · exact pending.takeInput.of_eq rfl rfl
  · rw [State.blockDone, ret]

/-- A push of the next byte, with the block's processing where it fills the buffer (R80). -/
theorem Fed.push (fed : Fed m p cs s) (r : Ret) (c : BitVec 8) :
    ∃ v, core.run (blockSteps p (p + 1)) (s.pushed (padByte m p) r c) = .next v ∧ Fed m (p + 1) cs v ∧
      v.seq = (if p % 64 = 63 then r.code else c) ∧ v.ret = (if p % 64 = 63 then r else s.ret) ∧ s.SameLog v := by
  by_cases full : p % 64 = 63
  · have steps : blockSteps p (p + 1) = 115 := by unfold blockSteps; omega
    rw [steps, if_pos full, if_pos full]
    exact fed.run_block full r c
  · have steps : blockSteps p (p + 1) = 0 := by unfold blockSteps; omega
    have notLast : s.n ≠ 63#7 := fun last => full (by rw [← fed.n, last]; rfl)
    rw [steps, if_neg full, if_neg full]
    refine ⟨_, run_zero _, fed.pushed_of_room full r c, ?_, ?_, rfl, rfl⟩
    · rw [State.pushed_seq, if_neg notLast]
    · rw [State.pushed_ret, if_neg notLast]

/-! ### The engine's pushes -/

/-- The micro-operation at a busy code, after the host's move. -/
theorem Fed.step_of_code {c : BitVec 8} {i : Instr} (fed : Fed m p cs s) (seq : s.seq = c) (code : decodeSeq c = .ok i)
    (busyCode : 4 ≤ c.toNat) : step s = exec i s.takeInput := by
  rw [fed.pending.step_takeInput, step_of_calm fed.pending.calm ((takeInput_seq s).trans seq) code busyCode]

/-- One byte of padding: the step that pushes it and the block it may fill. -/
theorem Fed.run_push {x : Byte} {r : Ret} {c : BitVec 8} (fed : Fed m p cs s) (byte : padByte m p = x)
    (next : step s = s.takeInput.push x r c) :
    ∃ v, core.run (pushSteps p (p + 1)) s = .next v ∧ Fed m (p + 1) cs v ∧
      v.seq = (if p % 64 = 63 then r.code else c) ∧ (p % 64 = 63 → v.ret = r) ∧ s.SameLog v := by
  subst byte
  have room : s.takeInput.n.toNat < 64 := by
    rw [fed.takeInput.n]
    omega
  obtain ⟨v, run, fed', seq, ret, same⟩ := fed.takeInput.push r c
  refine ⟨v, ?_, fed', seq, fun full => ret.trans (if_pos full), (takeInput_sameLog s).trans same⟩
  rw [pushSteps_succ, run_succ_of_next _ (next.trans (push_of_lt_64 _ _ _ _ room)), run]

/-- PAD_ONE (R81). -/
theorem Fed.run_padOne (fed : Fed m m.length cs s) (seq : s.seq = seqPadOne) :
    ∃ v, core.run (pushSteps m.length (m.length + 1)) s = .next v ∧ Fed m (m.length + 1) cs v ∧ v.seq = seqPadZero ∧
      s.SameLog v := by
  have next := fed.step_of_code seq (i := .padOne) rfl (by decide)
  obtain ⟨v, run, fed', seq', -, same⟩ := fed.run_push (padByte_length m) (next.trans (exec_padOne _))
  exact ⟨v, run, fed', seq'.trans (ite_self _), same⟩

/-- The zero bytes (R82): N = 56 comes after the last of them only. -/
theorem Fed.run_padZeros (fed : Fed m (m.length + 1) cs s) (seq : s.seq = seqPadZero) {j : Nat}
    (hj : j ≤ zeroCount m.length) :
    ∃ v, core.run (pushSteps (m.length + 1) (m.length + 1 + j)) s = .next v ∧ Fed m (m.length + 1 + j) cs v ∧
      v.seq = seqPadZero ∧ s.SameLog v := by
  induction j with
  | zero =>
    exact ⟨s, by rw [Nat.add_zero, pushSteps_self, run_zero], fed, seq, rfl, rfl⟩
  | succ j ih =>
    obtain ⟨u, run, fedU, seqU, sameU⟩ := ih (by omega)
    have total := add_zeroCount m.length
    have bound := zeroCount_lt m.length
    have not56 : u.takeInput.n ≠ 56#7 := fun at56 => by
      have index := fedU.takeInput.n
      rw [at56, BitVec.toNat_ofNat] at index
      omega
    have next := fedU.step_of_code seqU (i := .padZero) rfl (by decide)
    obtain ⟨v, run', fedV, seqV, -, sameV⟩ :=
      fedU.run_push (padByte_zero m (by omega)) (next.trans (exec_padZero_of_ne_56 not56))
    refine ⟨v, ?_, fedV, seqV.trans (ite_self _), sameU.trans sameV⟩
    rw [← Nat.add_assoc, ← pushSteps_add (Nat.le_add_right _ j) (Nat.le_succ _), run_add _ _ run, run']

/-- The length field starts at byte 56 of the last block. -/
theorem lengthField_mod (l : Nat) {i : Nat} (hi : i < 8) : (l + 1 + zeroCount l + i) % 64 = 56 + i := by
  have total := add_zeroCount l
  omega

/-- The step from PAD_ZERO to PAD_LEN pushes nothing (R82). -/
theorem Fed.run_padZeroEnds (fed : Fed m (m.length + 1 + zeroCount m.length) cs s) (seq : s.seq = seqPadZero) :
    ∃ v, core.run 1 s = .next v ∧ Fed m (m.length + 1 + zeroCount m.length) cs v ∧ v.seq = seqPadLen 0#3 ∧ s.SameLog v := by
  have at56 : s.takeInput.n = 56#7 := by
    refine BitVec.eq_of_toNat_eq (fed.takeInput.n.trans ?_)
    rw [← Nat.add_zero (m.length + 1 + zeroCount m.length), lengthField_mod _ (by decide)]
    rfl
  have next := (fed.step_of_code seq (i := .padZero) rfl (by decide)).trans (exec_padZero_of_eq_56 at56)
  exact ⟨_, run_snoc (run_zero s) next, fed.takeInput.of_eq rfl rfl rfl (fed.pending.takeInput.of_eq rfl rfl),
    State.setSeq_seq _ _, (takeInput_sameLog s).len, (takeInput_sameLog s).responses⟩

/-- A byte of the length (R83). -/
theorem Fed.run_padLen (i : BitVec 3) (fed : Fed m (m.length + 1 + zeroCount m.length + i.toNat) cs s)
    (seq : s.seq = seqPadLen i) (len : s.len = BitVec.ofNat 64 (8 * m.length)) :
    ∃ v, core.run (pushSteps (m.length + 1 + zeroCount m.length + i.toNat)
        (m.length + 1 + zeroCount m.length + i.toNat + 1)) s = .next v ∧
      Fed m (m.length + 1 + zeroCount m.length + i.toNat + 1) cs v ∧
      v.seq = (if i = 7#3 then seqDone else seqPadLen (i + 1#3)) ∧ (i = 7#3 → v.ret = .done) ∧ s.SameLog v := by
  have busyCode : ∀ k : BitVec 3, 4 ≤ (seqPadLen k).toNat := by decide
  have next := (fed.step_of_code seq (decodeSeq_seqPadLen i) (busyCode i)).trans (exec_padLen i _)
  have len' : s.takeInput.len = BitVec.ofNat 64 (8 * m.length) := by rw [takeInput_eq, ← len]
  rw [len'] at next
  obtain ⟨v, run, fedV, seqV, retV, same⟩ := fed.run_push (padByte_lenByte m i) next
  have last : (m.length + 1 + zeroCount m.length + i.toNat) % 64 = 63 ↔ i = 7#3 := by
    rw [lengthField_mod _ (by omega)]
    bv_omega
  refine ⟨v, run, fedV, ?_, fun at7 => retV (last.mpr at7), same⟩
  rw [seqV, if_congr last rfl rfl]
  split <;> rfl

/-- The bytes of the length but the last. -/
theorem Fed.run_padLens (fed : Fed m (m.length + 1 + zeroCount m.length) cs s) (seq : s.seq = seqPadLen 0#3)
    (len : s.len = BitVec.ofNat 64 (8 * m.length)) {j : Nat} (hj : j < 8) :
    ∃ v, core.run (pushSteps (m.length + 1 + zeroCount m.length) (m.length + 1 + zeroCount m.length + j)) s = .next v ∧
      Fed m (m.length + 1 + zeroCount m.length + j) cs v ∧ v.seq = seqPadLen (BitVec.ofNat 3 j) ∧ s.SameLog v := by
  induction j with
  | zero => exact ⟨s, by simp only [Nat.add_zero, pushSteps_self, run_zero], fed, seq, rfl, rfl⟩
  | succ j ih =>
    obtain ⟨u, run, fedU, seqU, sameU⟩ := ih (by omega)
    have index : (BitVec.ofNat 3 j).toNat = j := Nat.mod_eq_of_lt (by omega)
    have notLast : BitVec.ofNat 3 j ≠ 7#3 := by bv_omega
    have step := Fed.run_padLen (BitVec.ofNat 3 j) (by rwa [index]) seqU (sameU.len.trans len)
    rw [index, if_neg notLast] at step
    obtain ⟨v, run', fedV, seqV, -, sameV⟩ := step
    refine ⟨v, ?_, fedV, seqV.trans (congrArg seqPadLen (BitVec.ofNat_add_ofNat j 1)), sameU.trans sameV⟩
    rw [← Nat.add_assoc, ← pushSteps_add (Nat.le_add_right _ j) (Nat.le_succ _), run_add _ _ run, run']

/-- The padder, from the end of the message to the end of the padded message. -/
theorem Fed.run_padding (fed : Fed m m.length cs s) (seq : s.seq = seqPadOne) (len : s.len = BitVec.ofNat 64 (8 * m.length)) :
    ∃ v, core.run (pushSteps m.length (64 * nblocks m.length) + 1) s = .next v ∧ Fed m (64 * nblocks m.length) cs v ∧
      v.seq = seqDone ∧ v.ret = .done ∧ s.SameLog v := by
  let start := m.length + 1 + zeroCount m.length
  obtain ⟨s₁, run₁, fed₁, seq₁, same₁⟩ := fed.run_padOne seq
  obtain ⟨s₂, run₂, fed₂, seq₂, same₂⟩ := fed₁.run_padZeros seq₁ le_rfl
  obtain ⟨s₃, run₃, fed₃, seq₃, same₃⟩ := fed₂.run_padZeroEnds seq₂
  have same₁₃ := (same₁.trans same₂).trans same₃
  obtain ⟨s₄, run₄, fed₄, seq₄, same₄⟩ := fed₃.run_padLens seq₃ (same₁₃.len.trans len) (j := 7) (by decide)
  have same₁₄ := same₁₃.trans same₄
  obtain ⟨v, run₅, fed₅, seq₅, ret, same₅⟩ := Fed.run_padLen 7#3 fed₄ seq₄ (same₁₄.len.trans len)
  have stop : start + 7 + 1 = 64 * nblocks m.length := add_zeroCount m.length
  refine ⟨v, ?_, stop ▸ fed₅, seq₅, ret rfl, same₁₄.trans same₅⟩
  have steps : pushSteps m.length (64 * nblocks m.length) + 1 = pushSteps m.length (m.length + 1) +
      (pushSteps (m.length + 1) start + (1 + (pushSteps start (start + 7) + pushSteps (start + 7) (start + 7 + 1)))) := by
    have zeros : pushSteps m.length (m.length + 1) + pushSteps (m.length + 1) start = pushSteps m.length start :=
      pushSteps_add (by omega) (by omega)
    have length : pushSteps start (start + 7) + pushSteps (start + 7) (start + 7 + 1) = pushSteps start (start + 7 + 1) :=
      pushSteps_add (by omega) (by omega)
    have all : pushSteps m.length start + pushSteps start (start + 7 + 1) = pushSteps m.length (start + 7 + 1) :=
      pushSteps_add (by omega) (by omega)
    rw [← stop]
    omega
  rw [steps, run_add _ _ run₁, run_add _ _ run₂, run_add _ _ run₃, run_add _ _ run₄]
  exact run₅

/-! ### The host's commands -/

/-- INIT opens the session with no byte pushed (R112). -/
theorem step_init {rest : List Instr} (atRest : s.isRest = true) (free : s.port = none)
    (next : s.inputs = (Instr.init :: rest).map commandEvent) (wait : ∀ c ∈ rest, ∃ p, neededPhase c = some p) :
    ∃ v, step s = .next v ∧ Fed m 0 rest v ∧ v.seq = seqAccept ∧ v.len = 0#64 ∧
      v.responses = s.responses ++ [⟨.ok, 0#32⟩] := by
  have onPort := step_of_command_presented next free
  have legal : decodeCommand (encode .init).toNat = .ok .init := decodeCommand_encode (.inl rfl)
  let u : State := (s.setInputs (rest.map commandEvent)).setPort (some (encode .init).toNat)
  have atRest' : u.isRest = true := atRest
  have run : advance u = exec .init u :=
    advance_of_decidesNow (isReserved_of_isRest atRest') rfl legal (decidesNow_iff.mpr (.inr atRest'))
  exact ⟨_, onPort.trans (run.trans (exec_init_of_isRest atRest')),
    ⟨rfl, rfl, fun _ _ below => by omega, wait, .inl ⟨rfl, rfl⟩⟩, rfl, rfl, rfl⟩

/-- One message byte (R113). -/
theorem Fed.run_absorb {i : Nat} (hi : i < m.length) (short : m.length < 2 ^ 61)
    (fed : Fed m i (.absorb (padByte m i) :: cs) s) (seq : s.seq = seqAccept) (len : s.len = BitVec.ofNat 64 (8 * i)) :
    ∃ v, core.run (pushSteps i (i + 1)) s = .next v ∧ Fed m (i + 1) cs v ∧ v.seq = seqAccept ∧
      v.len = BitVec.ofNat 64 (8 * (i + 1)) ∧ v.responses = s.responses ++ [⟨.ok, 0#32⟩] := by
  have below : s.len ≠ lenMax := fun limit => by
    have value := congrArg BitVec.toNat (len.symm.trans limit)
    rw [toNat_bitCount (by omega), lenMax, BitVec.toNat_ofNat] at value
    omega
  let u : State := { s with port := some (encode (.absorb (padByte m i))).toNat, inputs := cs.map commandEvent }
  let counted : State := (u.setLen (u.len + 8#64)).respond .ok 0#32
  have wait : ∀ c ∈ cs, ∃ p, neededPhase c = some p := fun c hc => fed.pending.wait c (.tail _ hc)
  have room : u.n.toNat < 64 := by
    change s.n.toNat < 64
    rw [fed.n]
    omega
  have next : step s = .next (counted.pushed (padByte m i) .accept seqAccept) :=
    (fed.pending.step_of_isRest (State.isRest_of_seq seq (by decide))).trans
      (CommandEffect.absorb (s := u) seq below room).exec_eq
  have fedCounted : Fed m i cs counted := fed.of_eq rfl rfl rfl ⟨wait, .inl ⟨rfl, rfl⟩⟩
  obtain ⟨v, run, fedV, seqV, -, lenV, responsesV⟩ := fedCounted.push .accept seqAccept
  refine ⟨v, ?_, fedV, seqV.trans (ite_self _), lenV.trans ?_, responsesV⟩
  · rw [pushSteps_succ, run_succ_of_next _ next, run]
  · change s.len + 8#64 = _
    rw [len, BitVec.ofNat_add_ofNat, Nat.mul_succ]

/-- The bytes of the message, in order. -/
theorem Fed.run_absorbs (short : m.length < 2 ^ 61) {tail : List Instr} {i : Nat} (hi : i ≤ m.length)
    (fed : Fed m 0 (m.map .absorb ++ tail) s) (seq : s.seq = seqAccept) (len : s.len = 0#64) :
    ∃ v, core.run (pushSteps 0 i) s = .next v ∧ Fed m i ((m.drop i).map .absorb ++ tail) v ∧ v.seq = seqAccept ∧
      v.len = BitVec.ofNat 64 (8 * i) ∧ v.responses = s.responses ++ List.replicate i ⟨.ok, 0#32⟩ := by
  induction i with
  | zero => exact ⟨s, by rw [pushSteps_self, run_zero], fed, seq, len, (List.append_nil _).symm⟩
  | succ i ih =>
    obtain ⟨u, run, fedU, seqU, lenU, responsesU⟩ := ih (by omega)
    rw [List.drop_eq_getElem_cons hi, List.map_cons, List.cons_append, ← padByte_of_lt hi] at fedU
    obtain ⟨v, run', fedV, seqV, lenV, responsesV⟩ := fedU.run_absorb hi short seqU lenU
    refine ⟨v, ?_, fedV, seqV, lenV, ?_⟩
    · rw [← pushSteps_add (Nat.zero_le i) (Nat.le_succ i), run_add _ _ run, run']
    · rw [responsesV, responsesU, List.append_assoc, ← List.replicate_succ']

/-- FINAL starts the padder (R114). -/
theorem Fed.step_final (fed : Fed m p (.final :: cs) s) (seq : s.seq = seqAccept) :
    ∃ v, step s = .next v ∧ Fed m p cs v ∧ v.seq = seqPadOne ∧ v.len = s.len ∧
      v.responses = s.responses ++ [⟨.ok, 0#32⟩] := by
  let u : State := { s with port := some (encode .final).toNat, inputs := cs.map commandEvent }
  have wait : ∀ c ∈ cs, ∃ p, neededPhase c = some p := fun c hc => fed.pending.wait c (.tail _ hc)
  exact ⟨_, (fed.pending.step_of_isRest (State.isRest_of_seq seq (by decide))).trans (CommandEffect.final (s := u) seq).exec_eq,
    fed.of_eq rfl rfl rfl ⟨wait, .inl ⟨rfl, rfl⟩⟩, rfl, rfl, rfl⟩

/-- The registers an RDH leaves in DONE that the session's end speaks of. -/
def State.SameDigest (s t : State) : Prop := t.h = s.h ∧ t.seq = s.seq ∧ t.n = s.n ∧ t.ret = s.ret ∧ t.len = s.len

/-- RDH in DONE (R115), for a list of word indices: one step each, one word each, in order. -/
theorem run_rdhs (ks : List (BitVec 3)) {more : List Instr} : ∀ {s : State}, s.Pending (ks.map Instr.rdh ++ more) →
    s.seq = seqDone → ∃ v, core.run ks.length s = .next v ∧ v.Pending more ∧ s.SameDigest v ∧
      v.responses = s.responses ++ ks.map fun k => ⟨.ok, s.hAt k⟩ := by
  induction ks with
  | nil => exact fun {s} pending _ => ⟨s, run_zero s, pending, ⟨rfl, rfl, rfl, rfl, rfl⟩, (List.append_nil _).symm⟩
  | cons k ks ih =>
    intro s pending seq
    let u : State := { s with port := some (encode (.rdh k)).toNat, inputs := (ks.map Instr.rdh ++ more).map commandEvent }
    let answered : State := u.respond .ok (u.hAt k)
    have next : step s = .next answered :=
      (pending.step_of_isRest (State.isRest_of_seq seq (by decide))).trans (CommandEffect.rdh (s := u) seq).exec_eq
    have wait : ∀ c ∈ ks.map Instr.rdh ++ more, ∃ p, neededPhase c = some p := fun c hc => pending.wait c (.tail _ hc)
    obtain ⟨v, run, pendingV, same, responses⟩ := ih (s := answered) ⟨wait, .inl ⟨rfl, rfl⟩⟩ seq
    exact ⟨v, (run_succ_of_next _ next).trans run, pendingV, same, responses.trans (List.append_assoc _ _ _)⟩

/-! ### The session -/

/-- The indices of the words of a digest, in order. -/
def digestIndices : List (BitVec 3) := [0#3, 1#3, 2#3, 3#3, 4#3, 5#3, 6#3, 7#3]

/-- The commands of the canonical session after INIT (R120). -/
def sessionTail (m : List Byte) : List Instr := m.map .absorb ++ (.final :: digestIndices.map .rdh)

theorem sessionWords_eq_map (m : List Byte) :
    (sessionWords m).map HostEvent.command = (Instr.init :: sessionTail m).map commandEvent := by
  simp [sessionWords, absorbWords, rdDigestWords, sessionTail, digestIndices, commandEvent]

theorem neededPhase_sessionTail (m : List Byte) : ∀ c ∈ sessionTail m, ∃ p, neededPhase c = some p := by
  intro c hc
  simp only [sessionTail, List.mem_append, List.mem_map, List.mem_cons] at hc
  rcases hc with ⟨bb, -, rfl⟩ | rfl | ⟨k, -, rfl⟩ <;> exact ⟨_, rfl⟩

theorem toList_eq_map_digestIndices (x : Vector Word 8) : x.toList = digestIndices.map fun k => x[k.toNat]'k.isLt := by
  refine List.ext_getElem (by simp [digestIndices]) fun j hj _ => ?_
  have bound : j < 8 := by simpa using hj
  interval_cases j <;> rfl

/-- The session up to its RDHs: the digest is in H. -/
theorem run_to_digest (m : List Byte) (short : m.length < 2 ^ 61) (atRest : s.isRest = true) (free : s.port = none)
    (next : s.inputs = (sessionWords m).map .command) :
    ∃ v, core.run (m.length + 2 + engineSteps m.length) s = .next v ∧
      Fed m (64 * nblocks m.length) (digestIndices.map .rdh) v ∧ v.seq = seqDone ∧ v.ret = .done ∧
      v.len = BitVec.ofNat 64 (8 * m.length) ∧ v.responses = s.responses ++ List.replicate (m.length + 2) ⟨.ok, 0#32⟩ := by
  rw [sessionWords_eq_map] at next
  obtain ⟨s₁, step₁, fed₁, seq₁, len₁, responses₁⟩ := step_init (m := m) atRest free next (neededPhase_sessionTail m)
  obtain ⟨s₂, run₂, fed₂, seq₂, len₂, responses₂⟩ := fed₁.run_absorbs short le_rfl seq₁ len₁
  rw [List.drop_length, List.map_nil, List.nil_append] at fed₂
  obtain ⟨s₃, step₃, fed₃, seq₃, len₃, responses₃⟩ := fed₂.step_final seq₂
  obtain ⟨v, run₄, fed₄, seq₄, ret, ⟨len₄, responses₄⟩⟩ := fed₃.run_padding seq₃ (len₃.trans len₂)
  refine ⟨v, ?_, fed₄, seq₄, ret, len₄.trans (len₃.trans len₂), ?_⟩
  · have total := add_zeroCount m.length
    have pushes : pushSteps 0 m.length + pushSteps m.length (64 * nblocks m.length) = 179 * nblocks m.length := by
      rw [pushSteps_add (by omega) (by omega), pushSteps, blockSteps]
      omega
    have steps : m.length + 2 + engineSteps m.length =
        (pushSteps 0 m.length + ((pushSteps m.length (64 * nblocks m.length) + 1) + 1)) + 1 := by
      unfold engineSteps
      omega
    rw [steps, run_succ_of_next _ step₁, run_add _ _ run₂, run_succ_of_next _ step₃, run₄]
  · rw [responses₄, responses₃, responses₂, responses₁, List.replicate_succ, List.replicate_succ']
    simp only [List.append_assoc, List.cons_append, List.nil_append]

end

/-- Settles O55: the digest stands in H after the padding, and the eight RDHs read it; before the last of them a command is
still to come. -/
theorem canonicalSessionReturnsSha256 : Obligations.CanonicalSessionReturnsSha256 := by
  intro m s short atRest free next
  obtain ⟨v, run, fed, seq, ret, len, responses⟩ := run_to_digest m short atRest free next
  have digest : v.h = sha256 m := by rw [fed.h, Nat.mul_div_cancel_left _ (by decide), sha256]
  have empty : v.n = 0#7 := BitVec.eq_of_toNat_eq (by rw [fed.n, Nat.mul_mod_right]; rfl)
  constructor
  · obtain ⟨u, run', pending, -⟩ := run_rdhs (digestIndices.take 7) (more := [.rdh 7#3]) fed.pending seq
    refine ⟨u, ?_, pending.not_runEnded⟩
    rw [show m.length + 9 + engineSteps m.length = m.length + 2 + engineSteps m.length + 7 by omega, run_add _ _ run]
    exact run'
  · obtain ⟨t, run', pending, ⟨h, seqT, n, retT, lenT⟩, responsesT⟩ :=
      run_rdhs digestIndices (more := []) (by rw [List.append_nil]; exact fed.pending) seq
    refine ⟨t, ?_, ?_, h.trans digest, seqT.trans seq, n.trans empty, retT.trans ret, lenT.trans len, ?_⟩
    · rw [show m.length + 10 + engineSteps m.length = m.length + 2 + engineSteps m.length + 8 by omega, run_add _ _ run]
      exact run'
    · rw [responsesT, responses, ← digest, toList_eq_map_digestIndices, List.map_map]
      rfl
    · obtain ⟨freeT, noInputs⟩ | ⟨_, _, list, -, -⟩ := pending.ahead
      · have atRestT : t.isRest = true := State.isRest_of_seq (seqT.trans seq) (by decide)
        simp [State.runEnded, freeT, noInputs, atRestT]
      · cases list

end Sys2Proof.Machine

/-! Two states that look alike to the sequencer (10_state.md R25, section 8). Which kind of step is taken is decided by SEQ, the
port and the events to come (`Alike.step`); what remains for a noninterference claim is a case analysis on the outcome. -/

namespace Sys2Proof.Machine

/-- What decides which kind of step is taken. -/
structure Alike (s t : State) : Prop where
  seq : t.seq = s.seq
  port : t.port = s.port
  inputs : t.inputs = s.inputs

section
variable {s t s' : State} {i : Instr}

theorem Alike.takeInput (alike : Alike s t) : Alike s.takeInput t.takeInput := by
  have seq := alike.seq
  unfold State.takeInput
  rw [alike.inputs, alike.port]
  split <;> exact ⟨seq, by simp [alike.port], by simp [alike.inputs]⟩

theorem Alike.decidesNow (alike : Alike s t) (i : Instr) : t.decidesNow i = s.decidesNow i := by
  rw [State.decidesNow, State.decidesNow, State.isRest_congr alike.seq]

/-- With nothing on the port that is decided now, the step of host or engine is the micro-operation (R117). -/
theorem advance_of_undecided (code : decodeSeq s.seq = .ok i)
    (undecided : s.port = none ∨ ∃ w j, s.port = some w ∧ decodeCommand w = .ok j ∧ s.decidesNow j = false) :
    advance s = exec i s := by
  obtain free | ⟨w, j, onPort, legal, notNow⟩ := undecided
  · exact advance_of_free_port free code
  · have defined : s.isReserved = false := (isReserved_eq_false_iff s).mpr ⟨i, code⟩
    simp [advance, defined, onPort, legal, notNow, engineStep_of_decodeSeq code]

/-- Alike states reject the same words, decide the same commands and run the same micro-operations. -/
theorem Alike.advance (alike : Alike s t) (h : advance s = .next s') :
    (s' = s.raise .illegalCmd ∧ Machine.advance t = .next (t.raise .illegalCmd)) ∨
    (∃ i, CommandEffect s i s' ∧ Machine.advance t = exec i t) ∨
    (∃ i, decodeSeq s.seq = .ok i ∧ EngineEffect s i s' ∧ Machine.advance t = exec i t) := by
  obtain ⟨defined, ⟨w, e, onPort, illegal, rfl⟩ | ⟨w, i, onPort, legal, now, run⟩ | ⟨i, code, run, undecided⟩⟩ :=
    advance_next h
  · have defined' : t.isReserved = false := (State.isReserved_congr alike.seq).trans defined
    exact .inl ⟨rfl, advance_of_illegal_word defined' (alike.port.trans onPort) illegal⟩
  · have defined' : t.isReserved = false := (State.isReserved_congr alike.seq).trans defined
    exact .inr (.inl ⟨i, .of_exec (isCommand_of_decodeCommand legal) run,
      advance_of_decidesNow defined' (alike.port.trans onPort) legal ((alike.decidesNow i).trans now)⟩)
  · refine .inr (.inr ⟨i, code, .of_exec code run, advance_of_undecided (alike.seq ▸ code) ?_⟩)
    rw [alike.port]
    exact undecided.imp_right fun ⟨w, j, onPort, legal, notNow⟩ =>
      ⟨w, j, onPort, legal, (alike.decidesNow j).trans notNow⟩

theorem step_of_poll {rest : List HostEvent} (next : s.inputs = .poll :: rest) (defined : s.isReserved = false) :
    step s = .next ((s.setInputs rest).log ⟨.ok, s.statusWord⟩) :=
  pollChangesNothingButTheResponses s rest next defined

/-- Alike states take the same kind of step. -/
theorem Alike.step (alike : Alike s t) (h : step s = .next s') :
    (∃ rest, s' = (s.setInputs rest).resetEvent ∧ Machine.step t = .next (t.setInputs rest).resetEvent) ∨
    (∃ rest, s' = (s.setInputs rest).log ⟨.ok, s.statusWord⟩ ∧
      Machine.step t = .next ((t.setInputs rest).log ⟨.ok, t.statusWord⟩)) ∨
    (s' = s.takeInput.raise .illegalCmd ∧ Machine.step t = .next (t.takeInput.raise .illegalCmd)) ∨
    (∃ i, CommandEffect s.takeInput i s' ∧ Machine.step t = exec i t.takeInput) ∨
    (∃ i, decodeSeq s.takeInput.seq = .ok i ∧ EngineEffect s.takeInput i s' ∧ Machine.step t = exec i t.takeInput) := by
  obtain ⟨rest, next, rfl⟩ | ⟨rest, next, defined, rfl⟩ | ⟨notReset, notPoll, adv⟩ := step_next h
  · exact .inl ⟨rest, rfl, step_of_reset (alike.inputs.trans next)⟩
  · exact .inr (.inl ⟨rest, rfl, step_of_poll (alike.inputs.trans next)
      ((State.isReserved_congr alike.seq).trans defined)⟩)
  · have own : Machine.step t = Machine.advance t.takeInput := by
      unfold Machine.step machineStep
      split
      · exact absurd (alike.inputs.symm.trans ‹_›) (notReset _)
      · exact absurd (alike.inputs.symm.trans ‹_›) (notPoll _)
      · rfl
    rw [own]
    exact .inr (.inr (alike.takeInput.advance adv))

/-! ### H outside DONE (10_state.md section 8) -/

/-- The two states differ in H and V alone. -/
structure SameButHV (s t : State) : Prop where
  w : t.w = s.w
  b : t.b = s.b
  n : t.n = s.n
  len : t.len = s.len
  seq : t.seq = s.seq
  ret : t.ret = s.ret
  port : t.port = s.port
  inputs : t.inputs = s.inputs
  responses : t.responses = s.responses
  resets : t.resets = s.resets

theorem SameButHV.writeBack (same : SameButHV s t) : (t.setH s.h).setV s.v = s := by
  simp only [State.setH, State.setV, same.w, same.b, same.n, same.len, same.seq, same.ret, same.port, same.inputs,
    same.responses, same.resets]

theorem takeInput_setH (s : State) (x : Vector Word 8) : (s.setH x).takeInput = s.takeInput.setH x := by
  simp only [State.takeInput, State.setH_inputs, State.setH_port]
  split <;> rfl

theorem SameButHV.pushed (same : SameButHV s t) (x : Byte) (r : Ret) {c c' : BitVec 8} (next : c' = c) :
    SameButHV (s.pushed x r c) (t.pushed x r c') := by
  constructor <;> simp [same.w, same.b, same.n, same.len, same.ret, same.port, same.inputs, same.responses, same.resets, next]

/-- Outside DONE an outcome of a command that starts from another H differs in H and V alone. -/
theorem CommandEffect.setH (effect : CommandEffect s i s') (notDone : s.seq ≠ seqDone) (x : Vector Word 8) :
    ∃ t, CommandEffect (s.setH x) i t ∧ SameButHV s' t := by
  cases effect
  case rdh phase => exact absurd phase notDone
  case held busy command => exact ⟨_, .held busy command, by constructor <;> simp⟩
  case badPhase rest notErr other needs =>
    exact ⟨_, .badPhase needs rest notErr other, by constructor <;> simp⟩
  case ended err needs => exact ⟨_, .ended needs err, by constructor <;> simp⟩
  case init rest => exact ⟨_, .init rest, by constructor <;> simp⟩
  case limit phase limit => exact ⟨_, .limit phase limit, by constructor <;> simp⟩
  case absorb bb phase below room => exact ⟨_, .absorb phase below room, .pushed (by constructor <;> simp) bb _ rfl⟩
  case final phase => exact ⟨_, .final phase, by constructor <;> simp⟩
  case rdstat =>
    have status : (s.setH x).statusWord = s.statusWord := State.statusWord_congr rfl rfl
    exact ⟨_, .rdstat, by constructor <;> simp [status]⟩

/-- A micro-operation that starts from another H differs in H and V alone. -/
theorem EngineEffect.setH (effect : EngineEffect s i s') (x : Vector Word 8) :
    ∃ t, EngineEffect (s.setH x) i t ∧ SameButHV s' t := by
  have other : SameButHV s (s.setH x) := by constructor <;> simp
  cases effect
  case wait rest => exact ⟨_, .wait rest, by constructor <;> simp⟩
  case parse => exact ⟨_, .parse, by constructor <;> simp⟩
  case loadv => exact ⟨_, .loadv, by constructor <;> simp⟩
  case feedfwd => exact ⟨_, .feedfwd, by constructor <;> simp⟩
  case padOne room => exact ⟨_, .padOne room, other.pushed _ _ rfl⟩
  case padZeroEnds at56 => exact ⟨_, .padZeroEnds at56, by constructor <;> simp⟩
  case padZero not56 room => exact ⟨_, .padZero not56 room, other.pushed _ _ rfl⟩
  case padLen room => exact ⟨_, .padLen room, other.pushed _ _ rfl⟩
  case expand inRange row => exact ⟨_, .expand row inRange, by constructor <;> simp⟩
  case round => exact ⟨_, .round, by constructor <;> simp⟩

/-- Settles O51: a state with another H is alike, and its outcome differs in H and V alone. -/
theorem hashStateIsHiddenOutsideDone : Obligations.HashStateIsHiddenOutsideDone := by
  intro s s' x notDone h
  have alike : Alike s (s.setH x) := ⟨rfl, rfl, rfl⟩
  obtain ⟨t, next, same⟩ : ∃ t, Machine.step (s.setH x) = .next t ∧ SameButHV s' t := by
    obtain ⟨rest, rfl, next⟩ | ⟨rest, rfl, next⟩ | ⟨rfl, next⟩ | ⟨i, effect, next⟩ | ⟨i, -, effect, next⟩ :=
      alike.step h
    · exact ⟨_, next, by constructor <;> simp⟩
    · have status : (s.setH x).statusWord = s.statusWord := State.statusWord_congr rfl rfl
      exact ⟨_, next, by constructor <;> simp [status]⟩
    · rw [takeInput_setH] at next
      exact ⟨_, next, by constructor <;> simp⟩
    · rw [takeInput_setH] at next
      obtain ⟨t, effect', same⟩ := effect.setH (by rwa [takeInput_seq]) x
      exact ⟨t, next.trans effect'.exec_eq, same⟩
    · rw [takeInput_setH] at next
      obtain ⟨t, effect', same⟩ := effect.setH x
      exact ⟨t, next.trans effect'.exec_eq, same⟩
  exact ⟨t, next, same.responses, same.writeBack⟩

end

end Sys2Proof.Machine

/-! Registers not yet written (10_state.md R25, section 10). `AgreeAt k s t` is the agreement of two states at the code of `k`,
with what is live there spelled out; each outcome leads from the agreement at its own code to that at the next. -/

namespace Sys2Proof.Machine

/-! ### Agreement at a code -/

/-- How many bytes of B are live at the code of the instruction. -/
def bytesLive (n : Nat) : Instr → Nat
  | .accept | .padOne | .padZero | .padLen _ => n
  | .parse => 64
  | _ => 0

/-- How many words of W are live. -/
def wordsLive : Instr → Nat
  | .expandLow t | .expandHigh t => t.toNat
  | .loadv | .round _ => 64
  | _ => 0

/-- V is live. -/
def usesV : Instr → Bool
  | .round _ | .feedfwd => true
  | _ => false

/-- The fields that are live at every code, the port and the events to come among them. -/
structure SameControl (s t : State) : Prop where
  seq : t.seq = s.seq
  ret : t.ret = s.ret
  n : t.n = s.n
  len : t.len = s.len
  port : t.port = s.port
  inputs : t.inputs = s.inputs

/-- The agreement of two states whose SEQ holds the code of `k` (R25). -/
structure AgreeAt (k : Instr) (s t : State) : Prop extends SameControl s t where
  h : k ≠ .idle → t.h = s.h
  v : usesV k = true → t.v = s.v
  b : ∀ (j : Nat) (hj : j < 64), j < bytesLive s.n.toNat k → t.b[j] = s.b[j]
  w : AgreeBelow (wordsLive k) t.w s.w

section
variable {s t s' t' : State} {i k : Instr}

theorem liveB_of_decodeSeq (code : decodeSeq s.seq = .ok k) : s.liveB = bytesLive s.n.toNat k := by
  rw [State.liveB, code]
  cases k <;> rfl

theorem liveW_of_decodeSeq (code : decodeSeq s.seq = .ok k) : s.liveW = wordsLive k := by
  rw [State.liveW, code]
  cases k <;> rfl

theorem liveV_of_decodeSeq (code : decodeSeq s.seq = .ok k) : s.liveV = usesV k := by
  rw [State.liveV, code]
  cases k <;> rfl

theorem liveH_iff_of_decodeSeq (code : decodeSeq s.seq = .ok k) : s.liveH = true ↔ k ≠ .idle := by
  have idle : s.seq = seqIdle ↔ k = .idle := by
    constructor
    · intro seq
      rw [seq] at code
      exact (Except.ok.inj code).symm
    · rintro rfl
      exact (CodeWord.seq8.inj (encode_of_decodeSeq_eq_ok code)).symm
  rw [State.liveH, decide_eq_true_iff, ne_eq, idle]

/-- The model's agreement is the agreement at the code in SEQ. -/
theorem agree_iff (code : decodeSeq s.seq = .ok k) : s.Agree t ↔ AgreeAt k s t := by
  rw [State.Agree, liveB_of_decodeSeq code, liveW_of_decodeSeq code, liveV_of_decodeSeq code, liveH_iff_of_decodeSeq code]
  constructor
  · rintro ⟨seq, ret, n, len, port, inputs, h, v, b, w⟩
    have index {j : Nat} (hj : j < 64) : (BitVec.ofNat 6 j).toNat = j := Nat.mod_eq_of_lt hj
    refine ⟨⟨seq.symm, ret.symm, n.symm, len.symm, port.symm, inputs.symm⟩, fun u => (h u).symm, fun u => (v u).symm,
      fun j hj below => ?_, fun j hj below => ?_⟩
    · have byte := (b (BitVec.ofNat 6 j) (by rwa [index hj])).symm
      simpa only [State.bAt, index hj] using byte
    · have word := (w (BitVec.ofNat 6 j) (by rwa [index hj])).symm
      simpa only [State.wAt, index hj] using word
  · rintro ⟨⟨seq, ret, n, len, port, inputs⟩, h, v, b, w⟩
    exact ⟨seq.symm, ret.symm, n.symm, len.symm, port.symm, inputs.symm, fun u => (h u).symm, fun u => (v u).symm,
      fun j below => (b j.toNat j.isLt below).symm, fun j below => (w j.toNat j.isLt below).symm⟩

theorem SameControl.alike (same : SameControl s t) : Alike s t := ⟨same.seq, same.port, same.inputs⟩

theorem agreeBelow_zero (w w' : Vector Word 64) : AgreeBelow 0 w w' := fun _ _ below => absurd below (Nat.not_lt_zero _)

/-- Two states at a code where no word of W and not V is live, and no byte of B that was not live before. -/
theorem AgreeAt.of_fewer_bytes {l : Instr} (agree : AgreeAt k s t) (same : SameControl s' t') (h : t'.h = s'.h)
    (b : s'.b = s.b) (b' : t'.b = t.b) (few : bytesLive s'.n.toNat l ≤ bytesLive s.n.toNat k) (noV : usesV l = false)
    (noW : wordsLive l = 0) : AgreeAt l s' t' := by
  refine ⟨same, fun _ => h, by simp [noV], fun j hj below => ?_, noW ▸ agreeBelow_zero _ _⟩
  simp only [b, b']
  exact agree.b j hj (by omega)

/-- Two states at a code where no byte of B is live. -/
theorem AgreeAt.of_words (same : SameControl s t) (h : t.h = s.h) (v : usesV k = true → t.v = s.v)
    (w : AgreeBelow (wordsLive k) t.w s.w) (noB : bytesLive s.n.toNat k = 0) : AgreeAt k s t := by
  refine ⟨same, fun _ => h, v, fun j _ below => ?_, w⟩
  rw [noB] at below
  exact absurd below (Nat.not_lt_zero j)

/-- A step that changes no register. -/
theorem AgreeAt.of_sameEngine (agree : AgreeAt k s t) (same : s.SameEngine s') (same' : t.SameEngine t')
    (port : t'.port = s'.port) (inputs : t'.inputs = s'.inputs) : AgreeAt k s' t' := by
  obtain ⟨h, v, w, b, n, len, seq, ret⟩ := same
  obtain ⟨h', v', w', b', n', len', seq', ret'⟩ := same'
  have control : SameControl s' t' := by
    constructor <;> simp only [← seq, ← seq', ← ret, ← ret', ← n, ← n', ← len, ← len', port, inputs, agree.seq, agree.ret,
      agree.n, agree.len]
  refine ⟨control, ?_, ?_, ?_, ?_⟩
  · rw [← h, ← h']
    exact agree.h
  · rw [← v, ← v']
    exact agree.v
  · simpa only [← b, ← b', ← n] using agree.b
  · rw [← w, ← w']
    exact agree.w

/-! ### The outcomes -/

/-- The two steps return the same new responses and lead to states that agree. -/
def Together (s t s' t' : State) : Prop :=
  s'.Agree t' ∧ ∃ new, s'.responses = s.responses ++ new ∧ t'.responses = t.responses ++ new

theorem Together.of_agreeAt (c : BitVec 8) (seq : s'.seq = c) (code : decodeSeq c = .ok k) (agree : AgreeAt k s' t')
    (new : List Response) (returned : s'.responses = s.responses ++ new) (returned' : t'.responses = t.responses ++ new) :
    Together s t s' t' :=
  ⟨(agree_iff (by rw [seq, code])).mpr agree, new, returned, returned'⟩

/-- A step without response. -/
theorem Together.of_silent (c : BitVec 8) (seq : s'.seq = c) (code : decodeSeq c = .ok k) (agree : AgreeAt k s' t')
    (silent : s'.responses = s.responses) (silent' : t'.responses = t.responses) : Together s t s' t' :=
  .of_agreeAt c seq code agree [] (by rw [silent, List.append_nil]) (by rw [silent', List.append_nil])

/-- The byte pushed makes the bytes below N + 1 agree, which are the live ones at the code after the push. -/
theorem AgreeAt.pushed (agree : AgreeAt k s t) (live : bytesLive s.n.toNat k = s.n.toNat) (notIdle : k ≠ .idle)
    (x : Byte) (r : Ret) {c c' : BitVec 8} (next : c' = c) (few : bytesLive (s.n + 1#7).toNat i ≤ s.n.toNat + 1)
    (noV : usesV i = false) (noW : wordsLive i = 0) : AgreeAt i (s.pushed x r c) (t.pushed x r c') := by
  have same : SameControl (s.pushed x r c) (t.pushed x r c') := by
    constructor <;> simp [agree.n, agree.ret, agree.len, agree.port, agree.inputs, next]
  refine { same with h := fun _ => agree.h notIdle, v := ?v, b := ?b, w := ?w }
  case v => simp [noV]
  case w =>
    rw [noW]
    exact fun _ _ below => absurd below (Nat.not_lt_zero _)
  case b =>
    intro j hj below
    rw [State.pushed_n] at below
    simp only [State.pushed_b, agree.n, Vector.getElem_setIfInBounds]
    split
    · rfl
    · exact agree.b j hj (by omega)

/-- A push leads to PARSE with the whole block live, or to the caller's code. -/
theorem AgreeAt.agree_pushed (agree : AgreeAt k s t) (live : bytesLive s.n.toNat k = s.n.toNat) (notIdle : k ≠ .idle)
    (room : s.n.toNat < 64) (x : Byte) (r : Ret) {c c' : BitVec 8} (next : c' = c)
    (code : s.n ≠ 63#7 → ∃ i, decodeSeq c = .ok i ∧ (∀ n, bytesLive n i = n) ∧ usesV i = false ∧ wordsLive i = 0) :
    (s.pushed x r c).Agree (t.pushed x r c') := by
  have count : (s.n + 1#7).toNat = s.n.toNat + 1 := by bv_omega
  by_cases last : s.n = 63#7
  · have parse : decodeSeq (s.pushed x r c).seq = .ok .parse := by
      rw [State.pushed_seq, if_pos last]
      rfl
    have few : bytesLive (s.n + 1#7).toNat .parse ≤ s.n.toNat + 1 := by
      rw [last]
      decide
    exact (agree_iff parse).mpr (agree.pushed live notIdle x r next few rfl rfl)
  · obtain ⟨i, own, bytes, noV, noW⟩ := code last
    have own' : decodeSeq (s.pushed x r c).seq = .ok i := by rw [State.pushed_seq, if_neg last, own]
    exact (agree_iff own').mpr (agree.pushed live notIdle x r next (by rw [bytes, count]) noV noW)

theorem eq_of_decodeSeq_of_seq {c : BitVec 8} {l : Instr} (code : decodeSeq s.seq = .ok k) (seq : s.seq = c)
    (own : decodeSeq c = .ok l) : k = l := by
  rw [seq, own] at code
  exact (Except.ok.inj code).symm

/-- An answer that changes no register, with DATA the same for both. -/
theorem AgreeAt.respond (agree : AgreeAt k s t) (code : decodeSeq s.seq = .ok k) (c : Code) {d d' : Word} (same : d' = d) :
    Together s t (s.respond c d) (t.respond c d') := by
  subst same
  refine .of_agreeAt _ (State.respond_seq _ _ _) code ?_ [⟨c, d'⟩] rfl rfl
  exact agree.of_sameEngine (by simp [State.SameEngine]) (by simp [State.SameEngine]) (by simp) agree.inputs

/-- The commands: an outcome that answers in one state answers alike in the other. -/
theorem CommandEffect.together (effect : CommandEffect s i s') (code : decodeSeq s.seq = .ok k) (agree : AgreeAt k s t) :
    ∃ t', CommandEffect t i t' ∧ Together s t s' t' := by
  have rest : t.isRest = s.isRest := State.isRest_congr agree.seq
  have h (notIdle : s.seq ≠ seqIdle) : t.h = s.h :=
    agree.h ((liveH_iff_of_decodeSeq code).mp (decide_eq_true notIdle))
  cases effect
  case held busy own =>
    refine ⟨_, .held ((State.isBusy_congr agree.seq).trans busy) own, .of_silent _ (State.hold_seq _ _) code ?_ rfl rfl⟩
    exact agree.of_sameEngine (by simp [State.SameEngine]) (by simp [State.SameEngine]) (by simp) agree.inputs
  case badPhase atRest notErr other needs =>
    exact ⟨_, .badPhase needs (rest.trans atRest) (agree.seq ▸ notErr) (agree.seq ▸ other), agree.respond code _ rfl⟩
  case ended err needs => exact ⟨_, .ended needs (agree.seq.trans err), agree.respond code _ rfl⟩
  case rdstat => exact ⟨_, .rdstat, agree.respond code _ (State.statusWord_congr agree.seq agree.n)⟩
  case rdh phase =>
    have digest : t.h = s.h := h (by rw [phase]; decide)
    exact ⟨_, .rdh (agree.seq.trans phase), agree.respond code _ (by simp only [State.hAt, digest])⟩
  case init atRest =>
    refine ⟨_, .init (rest.trans atRest), .of_agreeAt seqAccept rfl (k := .accept) rfl ?_ [⟨.ok, 0#32⟩] rfl rfl⟩
    exact .of_words (by constructor <;> simp [agree.inputs]) rfl (by simp [usesV]) (agreeBelow_zero _ _) rfl
  case limit phase limit =>
    refine ⟨_, .limit (agree.seq.trans phase) (agree.len.trans limit),
      .of_agreeAt seqErr rfl (k := .err) rfl ?_ [⟨.tooLarge, 0#32⟩] rfl rfl⟩
    exact .of_words (by constructor <;> simp [agree.inputs, agree.ret, agree.n, agree.len]) (h (by rw [phase]; decide))
      (by simp [usesV]) (agreeBelow_zero _ _) rfl
  case final phase =>
    obtain rfl : k = .accept := eq_of_decodeSeq_of_seq code phase rfl
    refine ⟨_, .final (agree.seq.trans phase), .of_agreeAt seqPadOne rfl (k := .padOne) rfl ?_ [⟨.ok, 0#32⟩] rfl rfl⟩
    exact agree.of_fewer_bytes (by constructor <;> simp [agree.inputs, agree.ret, agree.n, agree.len])
      (h (by rw [phase]; decide)) rfl rfl le_rfl rfl rfl
  case absorb bb phase below room =>
    obtain rfl : k = .accept := eq_of_decodeSeq_of_seq code phase rfl
    have counted : AgreeAt .accept ((s.setLen (s.len + 8#64)).respond .ok 0#32)
        ((t.setLen (t.len + 8#64)).respond .ok 0#32) :=
      agree.of_fewer_bytes (by constructor <;> simp [agree.seq, agree.inputs, agree.ret, agree.n, agree.len])
        (h (by rw [phase]; decide)) rfl rfl le_rfl rfl rfl
    exact ⟨_, .absorb (agree.seq.trans phase) (agree.len ▸ below) (agree.n ▸ room),
      counted.agree_pushed rfl (by simp) room bb .accept rfl fun _ => ⟨.accept, rfl, fun _ => rfl, rfl, rfl⟩,
      [⟨.ok, 0#32⟩], rfl, rfl⟩

/-- The code after an EXPAND has the words up to its own live. -/
theorem wordsLive_expand_successor {k' : BitVec 6} {l : Instr} (inRange : 16 ≤ k'.toNat)
    (next : decodeSeq (if k' = 63#6 then seqLoadv else seqExpand (k' + 1#6)) = .ok l) :
    wordsLive l = k'.toNat + 1 ∧ usesV l = false ∧ ∀ n, bytesLive n l = 0 := by
  by_cases last : k' = 63#6
  · rw [if_pos last] at next
    cases next
    exact ⟨by rw [last]; rfl, rfl, fun _ => rfl⟩
  · have succ : (k' + 1#6).toNat = k'.toNat + 1 := by bv_omega
    rw [if_neg last] at next
    by_cases low : (k' + 1#6).toNat ≤ 31
    · rw [decodeSeq_seqExpand_low _ (by omega) low] at next
      cases next
      exact ⟨succ, rfl, fun _ => rfl⟩
    · rw [decodeSeq_seqExpand_high _ (by omega)] at next
      cases next
      exact ⟨succ, rfl, fun _ => rfl⟩

/-- After FEEDFWD, with an empty buffer, no register file but H is live. -/
theorem noneLive_of_retCode {r : Ret} {l : Instr} (next : decodeSeq r.code = .ok l) :
    bytesLive 0 l = 0 ∧ usesV l = false ∧ wordsLive l = 0 := by
  cases r <;> cases next <;> exact ⟨rfl, rfl, rfl⟩

/-- The micro-operations and rest codes: what an outcome reads is live at its code. -/
theorem EngineEffect.together (effect : EngineEffect s i s') (code : decodeSeq s.seq = .ok i) (inv : s.inv = true)
    (agree : AgreeAt i s t) : ∃ t', EngineEffect t i t' ∧ Together s t s' t' := by
  have row := ((inv_iff_of_decodeSeq code).mp inv).2
  cases effect
  case wait rest => exact ⟨t, .wait rest, (agree_iff code).mpr agree, [], by simp, by simp⟩
  case padOne room =>
    exact ⟨_, .padOne (agree.n ▸ room),
      agree.agree_pushed rfl (by simp) room _ _ rfl fun _ => ⟨.padZero, rfl, fun _ => rfl, rfl, rfl⟩, [], by simp, by simp⟩
  case padZero not56 room =>
    exact ⟨_, .padZero (agree.n ▸ not56) (agree.n ▸ room),
      agree.agree_pushed rfl (by simp) room _ _ rfl fun _ => ⟨.padZero, rfl, fun _ => rfl, rfl, rfl⟩, [], by simp, by simp⟩
  case padLen k room =>
    have next : (if k = 7#3 then t.seq else seqPadLen (k + 1#3)) = if k = 7#3 then s.seq else seqPadLen (k + 1#3) := by
      rw [agree.seq]
    refine ⟨_, .padLen (agree.n ▸ room), ?_, [], by simp, by simp⟩
    rw [agree.len]
    refine agree.agree_pushed rfl (by simp) room _ _ next fun _ => ?_
    split
    · exact ⟨.padLen k, code, fun _ => rfl, rfl, rfl⟩
    · exact ⟨_, decodeSeq_seqPadLen _, fun _ => rfl, rfl, rfl⟩
  case padZeroEnds at56 =>
    refine ⟨_, .padZeroEnds (agree.n.trans at56),
      .of_silent _ (State.setSeq_seq _ _) (decodeSeq_seqPadLen 0#3) ?_ (by simp) (by simp)⟩
    exact agree.of_fewer_bytes (by constructor <;> simp [agree.ret, agree.n, agree.len, agree.port, agree.inputs])
      (agree.h (by simp)) rfl rfl le_rfl rfl rfl
  case parse =>
    have block : t.b = s.b := Vector.ext fun j hj => agree.b j hj hj
    refine ⟨_, .parse, .of_silent _ (State.setSeq_seq _ _) (decodeSeq_seqExpand_low 16#6 (by decide) (by decide)) ?_
      (by simp) (by simp)⟩
    refine .of_words (by constructor <;> simp [agree.ret, agree.len, agree.port, agree.inputs])
      (by simpa using agree.h (by simp)) (by simp [usesV]) ?_ rfl
    simp only [State.setSeq_w, State.setN_w, State.setW_w, block]
    exact agreeBelow_parseWords s.b t.w s.w
  case loadv =>
    refine ⟨_, .loadv, .of_silent _ (State.setSeq_seq _ _) (decodeSeq_seqRound 0#6) ?_ (by simp) (by simp)⟩
    exact .of_words (by constructor <;> simp [agree.ret, agree.n, agree.len, agree.port, agree.inputs])
      (agree.h (by simp)) (fun _ => agree.h (by simp)) agree.w rfl
  case feedfwd =>
    obtain ⟨empty, -⟩ := row
    obtain ⟨l, next⟩ := decodeSeq_retCode s.ret
    have sum : addWords t.h t.v = addWords s.h s.v := by rw [agree.h (by simp), agree.v rfl]
    obtain ⟨noB, noV, noW⟩ := noneLive_of_retCode next
    refine ⟨_, .feedfwd, .of_silent _ (State.setSeq_seq _ _) next ?_ (by simp) (by simp)⟩
    refine .of_words (by constructor <;> simp [agree.ret, agree.n, agree.len, agree.port, agree.inputs]) (by simpa using sum)
      (by simp [noV]) (noW ▸ agreeBelow_zero _ _) ?_
    rw [State.setSeq_n, State.setH_n, empty]
    exact noB
  case expand k inRange own =>
    obtain ⟨l, next, -⟩ := decodeSeq_expand_successor k inRange
    obtain ⟨words, noV, noB⟩ := wordsLive_expand_successor inRange next
    have h : t.h = s.h := agree.h (by rcases own with rfl | rfl <;> simp)
    have before : AgreeBelow k.toNat t.w s.w := by rcases own with rfl | rfl <;> exact agree.w
    refine ⟨_, .expand own inRange, .of_silent _ (State.setSeq_seq _ _) next ?_ (by simp) (by simp)⟩
    refine .of_words (by constructor <;> simp [agree.ret, agree.n, agree.len, agree.port, agree.inputs]) h (by simp [noV]) ?_
      (noB _)
    rw [words]
    exact before.set k.isLt (before.expandWord_eq inRange)
  case round k =>
    obtain ⟨l, next, own⟩ := decodeSeq_round_successor k
    have words : t.w = s.w := agree.w.eq
    have working : roundStep t.v (kAt k) (t.wAt k) = roundStep s.v (kAt k) (s.wAt k) := by
      rw [agree.v rfl, State.wAt, State.wAt]
      simp only [words]
    refine ⟨_, .round, .of_silent _ (State.setSeq_seq _ _) next ?_ (by simp) (by simp)⟩
    refine .of_words (by constructor <;> simp [agree.ret, agree.n, agree.len, agree.port, agree.inputs]) (agree.h (by simp))
      (fun _ => working) ?_ ?_
    · intro j hj _
      simp only [State.setSeq_w, State.setV_w, words]
    · rcases own with rfl | ⟨_, rfl⟩ <;> rfl

/-! ### The step -/

theorem SameControl.takeInput (same : SameControl s t) : SameControl s.takeInput t.takeInput where
  seq := same.alike.takeInput.seq
  port := same.alike.takeInput.port
  inputs := same.alike.takeInput.inputs
  ret := by rw [takeInput_eq s, takeInput_eq t, same.ret]
  n := by rw [takeInput_eq s, takeInput_eq t, same.n]
  len := by rw [takeInput_eq s, takeInput_eq t, same.len]

theorem AgreeAt.takeInput (agree : AgreeAt k s t) : AgreeAt k s.takeInput t.takeInput := by
  have sameEngine (u : State) : u.SameEngine u.takeInput := by
    rw [takeInput_eq]
    exact ⟨rfl, rfl, rfl, rfl, rfl, rfl, rfl, rfl⟩
  exact agree.of_sameEngine (sameEngine s) (sameEngine t) agree.alike.takeInput.port agree.alike.takeInput.inputs

/-- After a reset no register file is live, whatever the two hold. -/
theorem together_resetEvent (inputs : t.inputs = s.inputs) : Together s t s.resetEvent t.resetEvent := by
  refine .of_silent seqIdle rfl (k := .idle) rfl ⟨by constructor <;> simp [inputs], ?_, ?_, ?_, ?_⟩ rfl rfl
  · simp
  · simp [usesV]
  · exact fun _ _ below => absurd below (Nat.not_lt_zero _)
  · exact agreeBelow_zero _ _

/-- Settles O50: agreeing states are alike, and each kind of step leads to agreeing states with the same responses. -/
theorem responsesDoNotDependOnUnwrittenRegisters : Obligations.ResponsesDoNotDependOnUnwrittenRegisters := by
  intro s t s' inv agree h
  obtain ⟨k, code, -⟩ := exists_row_of_inv inv
  have agreeAt := (agree_iff code).mp agree
  have code' : decodeSeq s.takeInput.seq = .ok k := by rw [takeInput_seq, code]
  have responses (u : State) : u.takeInput.responses = u.responses := by rw [takeInput_eq]
  obtain ⟨rest, rfl, next⟩ | ⟨rest, rfl, next⟩ | ⟨rfl, next⟩ | ⟨i, effect, next⟩ | ⟨i, own, effect, next⟩ :=
    agreeAt.alike.step h
  · exact ⟨_, next, together_resetEvent (s := s.setInputs rest) (t := t.setInputs rest) rfl⟩
  · have status : t.statusWord = s.statusWord := State.statusWord_congr agreeAt.seq agreeAt.n
    rw [status] at next
    refine ⟨_, next, Together.of_agreeAt s.seq rfl code ?_ [⟨.ok, s.statusWord⟩] rfl rfl⟩
    exact agreeAt.of_sameEngine (by simp [State.SameEngine]) (by simp [State.SameEngine]) agreeAt.port rfl
  · refine ⟨_, next, Together.of_agreeAt s.takeInput.seq rfl code' ?_ [⟨.illegalCmd, 0#32⟩] ?_ ?_⟩
    · exact agreeAt.takeInput.of_sameEngine (by simp [State.SameEngine]) (by simp [State.SameEngine]) (by simp)
        agreeAt.takeInput.inputs
    · rw [State.raise_responses, responses]
      rfl
    · rw [State.raise_responses, responses]
      rfl
  · obtain ⟨t', effect', agree', new, returned, returned'⟩ := effect.together code' agreeAt.takeInput
    exact ⟨t', next.trans effect'.exec_eq, agree', new, by rw [returned, responses], by rw [returned', responses]⟩
  · obtain rfl : k = i := Except.ok.inj (code'.symm.trans own)
    obtain ⟨t', effect', agree', new, returned, returned'⟩ :=
      effect.together own ((takeInput_inv s).trans inv) agreeAt.takeInput
    exact ⟨t', next.trans effect'.exec_eq, agree', new, by rw [returned, responses], by rw [returned', responses]⟩

end

end Sys2Proof.Machine

/-! The ROM words (40_constant_roms.md R60 to R63): trial division finds the primes, and the words are checked against the roots
of the 64 first of them. -/

namespace Sys2Proof.Machine

/-! ### The primes -/

/-- Trial division decides primality. -/
theorem mem_primesBelow_iff {n p : Nat} : p ∈ primesBelow n ↔ p < n ∧ p.Prime := by
  rw [primesBelow, List.mem_filter, List.mem_range, Nat.prime_def_lt']
  simp only [Bool.and_eq_true, decide_eq_true_eq, List.all_eq_true, List.mem_range, Bool.or_eq_true, Nat.dvd_iff_mod_eq_zero]
  refine and_congr_right fun _ => and_congr_right fun _ => forall_congr' fun d => ?_
  by_cases trivialDivisor : d < 2
  · simp [trivialDivisor, Nat.not_le.mpr trivialDivisor]
  · simp [trivialDivisor, Nat.not_lt.mp trivialDivisor]

/-- The first 64 primes. -/
def romPrimes : List Nat :=
  [2, 3, 5, 7, 11, 13, 17, 19, 23, 29, 31, 37, 41, 43, 47, 53, 59, 61, 67, 71, 73, 79, 83, 89, 97, 101, 103, 107, 109, 113, 127,
    131, 137, 139, 149, 151, 157, 163, 167, 173, 179, 181, 191, 193, 197, 199, 211, 223, 227, 229, 233, 239, 241, 251, 257, 263,
    269, 271, 277, 281, 283, 293, 307, 311]

/-- Trial division up to 312: about 50000 divisions, evaluated by the kernel. -/
theorem primesBelow_312 : primesBelow 312 = romPrimes := by decide +kernel

/-! ### The roots -/

/-- The integer part of the `k`-th root of `p`, for a root below 8. -/
def intRoot (k p : Nat) : Nat := (List.range 8).countP fun a => decide ((a + 1) ^ k ≤ p)

/-- The `k`-th root of `p` with the word as the first 32 bits of its fraction, scaled by `2^32`. -/
def scaledRoot (k p : Nat) (x : Word) : Nat := intRoot k p * 2 ^ 32 + x.toNat

/-- The scaled root is the largest number whose `k`-th power is at most the scaled prime. -/
def IsScaledRoot (k p r : Nat) : Prop := r ^ k ≤ p * 2 ^ (32 * k) ∧ p * 2 ^ (32 * k) < (r + 1) ^ k

theorem ofNat_scaledRoot (k p : Nat) (x : Word) : BitVec.ofNat 32 (scaledRoot k p x) = x := by
  refine BitVec.eq_of_toNat_eq ?_
  have bound := x.isLt
  rw [BitVec.toNat_ofNat, scaledRoot]
  omega

/-- The prime whose root the ROM word with this index is from. -/
def romPrime (j : Nat) : Nat := romPrimes.getD j 0

theorem getElem?_primesBelow_312 {j : Nat} (h : j < 64) : (primesBelow 312)[j]? = some (romPrime j) := by
  have bound : j < romPrimes.length := h
  rw [primesBelow_312, romPrime, List.getD_eq_getElem _ _ bound, List.getElem?_eq_getElem bound]

theorem isScaledRoot_ivAt : ∀ i : BitVec 3, IsScaledRoot 2 (romPrime i.toNat) (scaledRoot 2 (romPrime i.toNat) (ivAt i)) := by
  unfold IsScaledRoot
  decide

theorem isScaledRoot_kAt : ∀ t : BitVec 6, IsScaledRoot 3 (romPrime t.toNat) (scaledRoot 3 (romPrime t.toNat) (kAt t)) := by
  unfold IsScaledRoot
  decide

/-- Settles O12: trial division finds the primes, and the scaled root of each is its integer part and the ROM word. -/
theorem romWordsAreRootFractionsOfPrimes : Obligations.RomWordsAreRootFractionsOfPrimes := by
  refine ⟨congrArg List.length primesBelow_312, fun p mem => (mem_primesBelow_iff.mp mem).2, fun i => ?_, fun t => ?_⟩
  · obtain ⟨le, lt⟩ := isScaledRoot_ivAt i
    exact ⟨_, _, getElem?_primesBelow_312 (by omega), le, lt, (ofNat_scaledRoot 2 _ _).symm⟩
  · obtain ⟨le, lt⟩ := isScaledRoot_kAt t
    exact ⟨_, _, getElem?_primesBelow_312 t.isLt, le, lt, (ofNat_scaledRoot 3 _ _).symm⟩

end Sys2Proof.Machine

/-! The assembler (30_encoding.md R55, R56): every word it emits is the encoding of a command, and what the pseudo-instructions
refuse. -/

namespace Sys2Proof.Machine

/-! ### Legal words (R55) -/

/-- The word is that of a command. -/
def IsCommandWord (w : Nat) : Prop := ∃ c, IsCommand c ∧ w = (encode c).toNat

theorem decodes_of_isCommandWord {w : Nat} (h : IsCommandWord w) : ∃ i, decodeCommand w = .ok i := by
  obtain ⟨c, rfl | rfl | needs, rfl⟩ := h
  · exact ⟨_, decodeCommand_encode (.inl rfl)⟩
  · exact ⟨_, decodeCommand_rdstat⟩
  · exact ⟨_, decodeCommand_encode (.inr needs)⟩

theorem isCommandWord_absorb (bb : Byte) : IsCommandWord (encode (.absorb bb)).toNat := ⟨_, .inr (.inr ⟨_, rfl⟩), rfl⟩

theorem isCommandWord_rdh (k : BitVec 3) : IsCommandWord (encode (.rdh k)).toNat := ⟨_, .inr (.inr ⟨_, rfl⟩), rfl⟩

theorem isCommandWord_init : IsCommandWord (encode .init).toNat := ⟨_, .inl rfl, rfl⟩

theorem isCommandWord_final : IsCommandWord (encode .final).toNat := ⟨_, .inr (.inr ⟨_, rfl⟩), rfl⟩

theorem isCommandWord_rdstat : IsCommandWord (encode .rdstat).toNat := ⟨_, .inr (.inl rfl), rfl⟩

theorem isCommandWord_of_mem_absorbWords {m : List Byte} {w : Nat} (h : w ∈ absorbWords m) : IsCommandWord w := by
  obtain ⟨bb, -, rfl⟩ := List.mem_map.mp h
  exact isCommandWord_absorb bb

theorem isCommandWord_of_mem_rdDigestWords {w : Nat} (h : w ∈ rdDigestWords) : IsCommandWord w := by
  have words : rdDigestWords = digestIndices.map fun k => (encode (.rdh k)).toNat := rfl
  rw [words] at h
  obtain ⟨k, -, rfl⟩ := List.mem_map.mp h
  exact isCommandWord_rdh k

theorem isCommandWord_of_mem_sessionWords {m : List Byte} {w : Nat} (h : w ∈ sessionWords m) : IsCommandWord w := by
  simp only [sessionWords, List.mem_cons, List.mem_append] at h
  obtain rfl | absorb | rfl | rdh := h
  · exact isCommandWord_init
  · exact isCommandWord_of_mem_absorbWords absorb
  · exact isCommandWord_final
  · exact isCommandWord_of_mem_rdDigestWords rdh

/-- The words of a line, by its mnemonic. -/
theorem isCommandWord_of_assemble {l : AsmLine} {ws : List Nat} (h : assemble l = some ws) : ∀ w ∈ ws, IsCommandWord w := by
  cases l
  case init | final | rdstat =>
    obtain rfl := Option.some.inj h
    simp [isCommandWord_init, isCommandWord_final, isCommandWord_rdstat]
  case absorb x =>
    obtain ⟨-, words⟩ := Option.ite_none_right_eq_some.mp h
    obtain rfl := Option.some.inj words
    simp [isCommandWord_absorb]
  case rdh x =>
    obtain ⟨-, words⟩ := Option.ite_none_right_eq_some.mp h
    obtain rfl := Option.some.inj words
    simp [isCommandWord_rdh]
  case absorbs cs | absorbx ds =>
    obtain ⟨m, -, rfl⟩ := Option.map_eq_some_iff.mp h
    exact fun _ => isCommandWord_of_mem_absorbWords
  case rddigest =>
    obtain rfl := Option.some.inj h
    exact fun _ => isCommandWord_of_mem_rdDigestWords
  case hash cs =>
    obtain ⟨m, -, rfl⟩ := Option.map_eq_some_iff.mp h
    exact fun _ => isCommandWord_of_mem_sessionWords

/-- Settles O56: every word is a command's, and an operand above its range fails the range test. -/
theorem assemblerEmitsOnlyLegalWords : Obligations.AssemblerEmitsOnlyLegalWords :=
  ⟨fun _ _ h w mem => decodes_of_isCommandWord (isCommandWord_of_assemble h w mem), fun _ above =>
    if_neg (Nat.not_le.mpr above), fun _ above => if_neg (Nat.not_le.mpr above)⟩

/-! ### Refused operands (log entry 6) -/

theorem asciiBytes_eq_none {cs : List Char} (wide : ∃ c ∈ cs, 127 < c.toNat) : asciiBytes cs = none := by
  induction cs with
  | nil => simp at wide
  | cons c cs ih =>
    obtain here | later := List.exists_mem_cons_iff _ _ _ |>.mp wide
    · rw [asciiBytes, if_neg (Nat.not_le.mpr here)]
    · rw [asciiBytes, ih later]
      simp

/-- Two digits at a time: an odd number leaves one over, and a pair with a character that is no digit is refused. -/
theorem hexBytes_eq_none {ds : List Char} (bad : ds.length % 2 = 1 ∨ ∃ c ∈ ds, hexDigit c = none) : hexBytes ds = none := by
  induction ds using hexBytes.induct with
  | case1 => simp at bad
  | case2 c => rfl
  | case3 c d cs hi lo hc hd ih =>
    have rest : cs.length % 2 = 1 ∨ ∃ x ∈ cs, hexDigit x = none := by
      simpa [hc, hd, Nat.add_assoc] using bad
    simp [hexBytes, hc, hd, ih rest]
  | case4 c d cs notBoth =>
    rw [hexBytes]
    split
    next hi lo hc hd => exact (notBoth hi lo hc hd).elim
    next => rfl

/-! ### The digits (log entry 6) -/

/-- The letters in small. -/
def smallDigitValues : List (Char × Nat) := [('a', 10), ('b', 11), ('c', 12), ('d', 13), ('e', 14), ('f', 15)]

theorem hexDigit_of_mem_smallDigitValues : ∀ p ∈ smallDigitValues, hexDigit p.1 = some p.2 := by decide

/-- The three ranges of character codes `hexDigit` looks at hold the listed digits. -/
theorem mem_hexDigitValues_of_decimal : ∀ n < 58, 48 ≤ n → (Char.ofNat n, n - 48) ∈ hexDigitValues := by decide

theorem mem_hexDigitValues_of_capital : ∀ n < 71, 65 ≤ n → (Char.ofNat n, n - 55) ∈ hexDigitValues := by decide

theorem mem_smallDigitValues_of_small : ∀ n < 103, 97 ≤ n → (Char.ofNat n, n - 87) ∈ smallDigitValues := by decide

theorem hexDigit_eq_some_iff (c : Char) (x : Nat) :
    hexDigit c = some x ↔ (c, x) ∈ hexDigitValues ∨ (c, x) ∈ smallDigitValues := by
  constructor
  · intro h
    unfold hexDigit at h
    rw [← Char.ofNat_toNat c]
    split_ifs at h with decimal capital small
    · cases h
      exact .inl (mem_hexDigitValues_of_decimal _ (by omega) decimal.1)
    · cases h
      exact .inl (mem_hexDigitValues_of_capital _ (by omega) capital.1)
    · cases h
      exact .inr (mem_smallDigitValues_of_small _ (by omega) small.1)
  · rintro (mem | mem)
    · exact hexDigit_of_mem_hexDigitValues _ mem
    · exact hexDigit_of_mem_smallDigitValues _ mem

/-- Settles O59: the bytes of a refused operand are none, and so are its words; the digits are the listed ones, in pairs. -/
theorem pseudoInstructionsRefuseOtherOperands : Obligations.PseudoInstructionsRefuseOtherOperands := by
  refine ⟨fun cs wide => ?_, fun ds bad => ?_, hexDigit_eq_some_iff, fun ps digits =>
    ⟨hexBytes_eq_some digits, assemble_absorbx digits⟩⟩
  · have refused := asciiBytes_eq_none wide
    exact ⟨refused, by rw [assemble, refused]; rfl, by rw [assemble, refused]; rfl⟩
  · have refused := hexBytes_eq_none bad
    exact ⟨refused, by rw [assemble, refused]; rfl⟩

end Sys2Proof.Machine
